-- ==== Sys2Proof/Word.lean ====
section
/-!
DEFINITION. The words of the part: spec/00_scope.md sections 5.1 and 5.6.
-/
namespace Sys2Proof

/-- A word of the part is 32 bits (section 5.6); line counts and µs clock values are words that wrap. -/
abbrev Word := BitVec 32

/-- One byte of the table area. -/
abbrev Byte := BitVec 8

/-- A stand number 0 to 7. -/
abbrev StandNo := Fin 8

/-- The eight stands, lowest number first. -/
def standNumbers : List StandNo := [0, 1, 2, 3, 4, 5, 6, 7]

end Sys2Proof
end

