-- ==== Sys2Proof/Syntax.lean ====
section
/-!
DEFINITION. The commands of the part: one constructor for each row of spec/opcode_table.json.
The table gives its rows no fields; the operands are the model's (log entry 21). A request's own fields
are not operands: they stand in the slot body in the table area and are read at the intake (R180).
-/
namespace Sys2Proof

/-- One of the eight conditioned inputs of a stand (R15). `brk k` is BREAK k+1. -/
inductive StandInput where
  | spindle
  | tabA
  | tabB
  | indexHome
  | brk (k : Fin 4)
deriving DecidableEq, Repr

/-- An input whose conditioned change may be no mark, break or release event (row INPUT_CONDITIONED_CHANGE). -/
inductive ChangedInput where
  | cut
  | stand (i : StandNo) (input : StandInput)
deriving DecidableEq, Repr

/-- A request slot of the table area (R178). -/
inductive Slot where
  | line
  | command (i : StandNo)
  | order (i : StandNo)
deriving DecidableEq, Repr

/-- The two sources of a device reset (R188). -/
inductive ResetSource where
  /-- The RESET pin goes low; the reset lasts until RESET_RELEASE. -/
  | pin
  /-- A write of this value to UNIT; it is a reset when bit 0 is set, and the reset ends within the write. -/
  | unitWrite (value : Word)
deriving DecidableEq, Repr

/-- The levels on the input pins, as the first samples at the end of a reset find them (R14, R23, R32).
Bits 0 to 7 of a stand's entry are SPINDLE, TAB-A, TAB-B, INDEX HOME and BREAK 1 to 4. -/
structure Pins where
  a      : Bool
  b      : Bool
  cut    : Bool
  safe   : Bool
  stands : Vector (BitVec 8) 8
deriving DecidableEq, Repr

/-- The commands: the rows of spec/opcode_table.json, in the table's order. -/
inductive Instr where
  /-- QUADRATURE_TRANSITION (R1): the sampled pair becomes (a, b). -/
  | quadratureTransition (a b : Bool)
  /-- SPEED_SAMPLE (R4). -/
  | speedSample
  /-- ENCODER_FAULT_WINDOW_END (R5). -/
  | encoderFaultWindowEnd
  /-- CUT_EDGE (R7). -/
  | cutEdge
  /-- SPINDLE_MARK (R53). -/
  | spindleMark (i : StandNo)
  /-- TAB_MARK (R66). -/
  | tabMark (i : StandNo)
  /-- INDEX_HOME_MARK (R86). -/
  | indexHomeMark (i : StandNo)
  /-- WEB_BREAK (R21): BREAK k+1 of the stand becomes asserted. -/
  | webBreak (i : StandNo) (k : Fin 4)
  /-- BREAK_RELEASE (R22): BREAK k+1 of the stand becomes released. -/
  | breakRelease (i : StandNo) (k : Fin 4)
  /-- SAFE_ASSERTION (R23). -/
  | safeAssertion
  /-- SAFE_RELEASE (R24). -/
  | safeRelease
  /-- DRIVE_REF_PERIOD_START (R26). -/
  | driveRefPeriodStart (i : StandNo)
  /-- JOG_HOLD_DEADLINE (R31). -/
  | jogHoldDeadline (i : StandNo)
  /-- TAB_DEADLINE (R69). -/
  | tabDeadline (i : StandNo)
  /-- MATCH_DEADLINE (R82). -/
  | matchDeadline (i : StandNo)
  /-- FIRE_TIME (R121). -/
  | fireTime (i : StandNo)
  /-- NIP (R124). -/
  | nip (i : StandNo)
  /-- DWELL_END (R122). -/
  | dwellEnd (i : StandNo)
  /-- KNIFE_LATE_DEADLINE (R127). -/
  | knifeLateDeadline (i : StandNo)
  /-- KNIFE_END (R129). -/
  | knifeEnd (i : StandNo)
  /-- INDEX_DEADLINE (R87). -/
  | indexDeadline (i : StandNo)
  /-- LINE_SETUP (R11): intake of the LINE slot with kind 0x01. -/
  | lineSetup
  /-- GATE_OVERRIDE (R155): intake of the LINE slot with kind 0x02 and a code other than FREEZE. -/
  | gateOverride
  /-- FREEZE (R156): intake of the LINE slot with kind 0x02 and code FREEZE. -/
  | freeze
  /-- CLEAR_TRACKING (R157): intake of the LINE slot with kind 0x03. -/
  | clearTracking
  /-- DECLARE_RUNNING (R37): intake of ORDER slot i with kind 0x10. -/
  | declareRunning (i : StandNo)
  /-- LOAD_REEL (R39): intake of ORDER slot i with kind 0x11. -/
  | loadReel (i : StandNo)
  /-- CANCEL_REEL (R40): intake of ORDER slot i with kind 0x12. -/
  | cancelReel (i : StandNo)
  /-- STAND_SETUP (R42): intake of ORDER slot i with kind 0x13. -/
  | standSetup (i : StandNo)
  /-- SPLICE_NOW (R78): intake of COMMAND slot i with kind 0x20. -/
  | spliceNow (i : StandNo)
  /-- ABORT (R90): intake of COMMAND slot i with kind 0x21. -/
  | abort (i : StandNo)
  /-- RESUME (R79): intake of COMMAND slot i with kind 0x22. -/
  | resume (i : StandNo)
  /-- STAND_RESET (R95): intake of COMMAND slot i with kind 0x23. -/
  | standReset (i : StandNo)
  /-- JOG_INDEX (R30): intake of COMMAND slot i with kind 0x24. -/
  | jogIndex (i : StandNo)
  /-- REVISE_TIMING (R115): intake of COMMAND slot i with kind 0x25. -/
  | reviseTiming (i : StandNo)
  /-- SET_PHASE_LINES (R29): intake of COMMAND slot i with kind 0x26. -/
  | setPhaseLines (i : StandNo)
  /-- RECORDS_RETURNED (R172): intake of the RECORDS RETURNED indication. -/
  | recordsReturned
  /-- ATTENTION_WRITE (R179). -/
  | attentionWrite (value : Word)
  /-- NOTICE_WRITE (R185). -/
  | noticeWrite (value : Word)
  /-- NOTICE_ENABLE_WRITE (R186). -/
  | noticeEnableWrite (value : Word)
  /-- NOTICE_LEVEL_WRITE (R186). -/
  | noticeLevelWrite (value : Word)
  /-- UNDEFINED_REGISTER_WRITE (R177): a register write that has no row of its own. -/
  | undefinedRegisterWrite (offset value : Word)
  /-- DEVICE_RESET (R188). -/
  | deviceReset (source : ResetSource)
  /-- RESET_RELEASE (R188): the RESET pin goes high; `pins` are the first samples. -/
  | resetRelease (pins : Pins)
  /-- INITIALISATION_END (R189). -/
  | initialisationEnd
  /-- INPUT_CONDITIONED_CHANGE (R15): a conditioned change that is no mark, break or release event. -/
  | inputConditionedChange (input : ChangedInput)
  /-- DRIVE_REF_ACTIVE_END (R26). -/
  | driveRefActiveEnd (i : StandNo)
  /-- HOST_TABLE_WRITE (R171): a host write of a word at a byte offset of the table area. -/
  | hostTableWrite (offset : BitVec 13) (value : Word)
  /-- SLOT_INTAKE_NOT_POSTED (R180). -/
  | slotIntakeNotPosted (slot : Slot)
  /-- REFUSED_KIND (R182). -/
  | refusedKind (slot : Slot)
deriving DecidableEq, Repr

end Sys2Proof
end

