-- ==== Sys2Proof/Decode.lean ====
section
/-!
DEFINITION. The command a word spells by the table's bits. No row of spec/opcode_table.json gives bits
("n_rows_with_fixed": 0 in spec/98_reader.md), so no word spells a command (log entry 21).
-/
namespace Sys2Proof

/-- The command that the `nbits` bits `w` spell: none, since no row of the table has bits. -/
def decodeTableWord (_nbits _w : Nat) : Option Instr := none

end Sys2Proof
end

