-- ==== Sys2Proof/Machine/Arith.lean ====
section
/-!
DEFINITION. The arithmetic of spec/00_scope.md sections 5.1, 5.2 and 5.5, and the packing of words.
-/
namespace Sys2Proof.Machine

/-- "a is at or after b": (a − b) mod 2^32 is less than 2^31 (section 5.1). A deadline b has passed when the
µs clock a is at or after it (section 5.2). -/
def atOrAfter (a b : Word) : Bool := decide ((a - b).toNat < 2147483648)

/-- "a is after b": a is at or after b + 1 (R146). -/
def isAfter (a b : Word) : Bool := atOrAfter a (b + 1)

/-- "The µs clock reaches the deadline": the deadline is present and has passed (section 5.2, R73). -/
def reached (clock : Word) : Option Word → Bool
  | none => false
  | some d => atOrAfter clock d

/-- Round a / b to nearest, halves away from zero, for non-negative numbers (section 5.5). -/
def roundDiv (a b : Nat) : Nat := (2 * a + b) / (2 * b)

/-- Round a / b to nearest, halves away from zero, for a signed numerator (section 5.5). -/
def roundDivInt (a : Int) (b : Nat) : Int :=
  if a < 0 then -(roundDiv a.natAbs b : Int) else (roundDiv a.natAbs b : Int)

/-- "Clamp x to a…b" (section 5.5). -/
def clampInt (lo hi x : Int) : Int := if x < lo then lo else if hi < x then hi else x

/-- "Clamp x to a…b" for non-negative numbers (section 5.5). -/
def clampNat (lo hi x : Nat) : Nat := if x < lo then lo else if hi < x then hi else x

/-- Increment saturating at `limit` (section 5.5). -/
def satInc (limit n : Nat) : Nat := if n < limit then n + 1 else n

/-- The largest 32-bit number, the limit of the saturating totals. -/
def max32 : Nat := 4294967295

/-- The largest 16-bit number. -/
def max16 : Nat := 65535

/-- Bits lo … lo+width−1 of a word, holding the low `width` bits of `value`. -/
structure Field where
  lo    : Nat
  width : Nat
  value : Nat

/-- A word from its fields; bits of no field are 0 (section 11.6). -/
def packWord (fields : List Field) : Word :=
  BitVec.ofNat 32 (fields.foldr (fun f acc => (f.value % 2 ^ f.width) * 2 ^ f.lo + acc) 0)

/-- The bits lo … lo+width−1 of a word as a number. -/
def bitsOf (w : Word) (lo width : Nat) : Nat := w.toNat / 2 ^ lo % 2 ^ width

/-- A signed number in two's complement of the width given (section 11.6). -/
def signedBits (width : Nat) (x : Int) : Nat := (x % (2 ^ width : Nat)).toNat

/-- A presence bit, or any other flag, as a number. -/
def flag (b : Bool) : Nat := if b then 1 else 0

/-- The value of an optional word; 0 when absent (section 11.6). -/
def wordOf (w : Option Word) : Word := w.getD 0

/-- The value of an optional number as a word; 0 when absent (section 11.6). -/
def natWord (n : Option Nat) : Word := BitVec.ofNat 32 (n.getD 0)

end Sys2Proof.Machine
end

