-- ==== Sys2Proof/Config.lean ====
section
/-!
DEFINITION. The free values of the model: what the spec leaves open and nothing in the model fixes.
-/
namespace Sys2Proof

/-- FREE VALUE (log entry 6; R189). How many of the first two steps of the table-area initialisation are
done when the n-th host write taken during an initialisation arrives. The spec gives the steps' order and
no bound for their times, so the value has no body: a statement holds whatever it is. That a step is done as a whole is a
DESIGN CHOICE (log entry 29). -/
opaque Config.initialisationProgress : Nat → Nat

end Sys2Proof
end

