-- ==== Sys2Proof/Machine/State.lean ====
section
/-!
DEFINITION. The state of the part as plain data, block by block in the order of the spec's chapters, and
its value after a device reset. Values the manual counts and compares as numbers are `Nat` or `Int`; line
counts, µs clock values and registers the host reads as words are bit vectors.
-/
namespace Sys2Proof.Machine

/-- Why the machine stops with a fault. -/
inductive Fault where
  /-- HOST_TABLE_WRITE at an offset that is not word-aligned: the bus has no such access (R177). Raised by
  `execHostTableWrite` alone. Safe: the command cannot be given to the hardware. -/
  | misalignedTableAccess
deriving DecidableEq, Repr

/-- Why the machine refuses a command. -/
inductive Refusal where
  /-- The command has no meaning in the model. Raised by an arm of `exec` alone; no arm does. Safe. -/
  | notModelled (mnemonic : String)
deriving DecidableEq, Repr

/-! ### Inputs -/

/-- A three-sample filter with its pin (R6, R15): the raw level on the pin, the conditioned level, the last
sample and the count of equal samples. -/
structure Input where
  pin   : Bool
  level : Bool
  last  : Bool
  count : Nat
deriving DecidableEq, Repr

/-- A filter at the end of a reset: conditioned level and last sample are the first sample (R14, R32). -/
def Input.atReset (pin : Bool) : Input := ⟨pin, pin, pin, 0⟩

/-- The eight inputs of a stand (R15). -/
structure StandInputs where
  spindle   : Input
  tabA      : Input
  tabB      : Input
  indexHome : Input
  breaks    : Vector Input 4
deriving DecidableEq, Repr

/-- The inputs of a stand at the end of a reset, from the levels on its pins (R32). -/
def StandInputs.atReset (pins : BitVec 8) : StandInputs where
  spindle   := .atReset (pins.getLsbD 0)
  tabA      := .atReset (pins.getLsbD 1)
  tabB      := .atReset (pins.getLsbD 2)
  indexHome := .atReset (pins.getLsbD 3)
  breaks    := #v[.atReset (pins.getLsbD 4), .atReset (pins.getLsbD 5), .atReset (pins.getLsbD 6),
    .atReset (pins.getLsbD 7)]

/-! ### Line reference (01_line_reference.md) -/

inductive CutStatus where
  | normal
  | synthetic
  | fault
deriving DecidableEq, Repr

inductive BoundaryKind where
  | real
  | synthetic
deriving DecidableEq, Repr

/-- The six line parameters (section 1.6). -/
structure LineParams where
  cutoff     : Nat
  gateDelay  : Nat
  preMargin  : Nat
  postMargin : Nat
  clearance  : Nat
  vMin       : Nat
deriving DecidableEq, Repr

/-- The line parameters after device reset (section 1.6). -/
def LineParams.atReset : LineParams := ⟨5780, 8, 2000, 2000, 200000, 300⟩

/-- The line reference (R1 to R14). -/
structure LineRef where
  lineCount     : Word
  refA          : Bool
  refB          : Bool
  illegalTotal  : Nat
  windowCount   : Nat
  encoderFault  : Bool
  usClock       : Word
  nextSample    : Word
  sampleCounter : Nat
  prevCount     : Word
  v             : Int
  vLine         : Nat
  cut           : Input
  boundaryRef   : Option Word
  lastKind      : Option BoundaryKind
  copyNumber    : Word
  cutStatus     : CutStatus
  syntheticRun  : Nat
  spuriousCuts  : Nat
  params        : LineParams
  /-- The model's own field (log entry 11): a speed sample has ended an encoder fault window, and the step
  ENCODER_FAULT_WINDOW_END has not been taken yet. -/
  windowEndDue  : Bool
deriving DecidableEq, Repr

/-- The line reference at the end of a reset (R14). -/
def LineRef.atReset (pins : Pins) : LineRef where
  lineCount     := 0
  refA          := pins.a
  refB          := pins.b
  illegalTotal  := 0
  windowCount   := 0
  encoderFault  := false
  usClock       := 0
  nextSample    := 10000
  sampleCounter := 0
  prevCount     := 0
  v             := 0
  vLine         := 0
  cut           := .atReset pins.cut
  boundaryRef   := none
  lastKind      := none
  copyNumber    := 0
  cutStatus     := .normal
  syntheticRun  := 0
  spuriousCuts  := 0
  params        := .atReset
  windowEndDue  := false

/-! ### Setup set and reel records (03_reel_records_and_stand_setup.md) -/

inductive FilterRate where
  | fast
  | slow
deriving DecidableEq, Repr

inductive EdgeSelect where
  | none
  | rise
  | fall
deriving DecidableEq, Repr

inductive TabSelect where
  | a
  | b
deriving DecidableEq, Repr

inductive PhaseMode where
  | auto
  | manual
deriving DecidableEq, Repr

/-- The active setup set: the 27 values of R41, in its order. -/
structure Setup where
  pathLength   : Nat
  zoneLength   : Nat
  theta        : Nat
  tAct         : Nat
  dwell        : Nat
  knifeDelay   : Nat
  knifeWidth   : Nat
  tAcc         : Nat
  tSettle      : Nat
  window       : Nat
  offset       : Int
  tMatch       : Nat
  rate         : FilterRate
  edgeSpindle  : EdgeSelect
  edgeTab      : EdgeSelect
  edgeHome     : EdgeSelect
  tabSelect    : TabSelect
  seeThrough   : Bool
  breakEnable  : Vector Bool 4
  phaseMode    : PhaseMode
  patRun       : Nat
  patAccel     : Nat
  patSplice    : Nat
  patIndex     : Nat
deriving DecidableEq, Repr

/-- The defaults of R41. -/
def Setup.defaults : Setup where
  pathLength   := 0
  zoneLength   := 6000
  theta        := 0
  tAct         := 50000
  dwell        := 20000
  knifeDelay   := 2000
  knifeWidth   := 30000
  tAcc         := 15000
  tSettle      := 3000
  window       := 5
  offset       := 0
  tMatch       := 20000
  rate         := .slow
  edgeSpindle  := .none
  edgeTab      := .none
  edgeHome     := .none
  tabSelect    := .a
  seeThrough   := false
  breakEnable  := Vector.replicate 4 false
  phaseMode    := .auto
  patRun       := 0
  patAccel     := 0
  patSplice    := 0
  patIndex     := 0

/-- The staged timing set (R49). -/
structure StagedTiming where
  theta      : Option Nat
  tAct       : Option Nat
  dwell      : Option Nat
  knifeDelay : Option Nat
  knifeWidth : Option Nat
deriving DecidableEq, Repr

def StagedTiming.empty : StagedTiming := ⟨none, none, none, none, none⟩

/-- The geometry and id of a reel: the fields both reel records hold (R34). -/
structure Reel where
  id     : Word
  dFull  : Nat
  core   : Nat
  caliper : Nat
  splice : Nat
deriving DecidableEq, Repr

/-- A running-reel record: only it may hold a current diameter (R34). -/
structure RunningReel where
  reel    : Reel
  current : Option Nat
deriving DecidableEq, Repr

/-! ### Stand interface (02_stand_inputs_and_outputs.md) -/

/-- The stand interface, but for the values of the setup set (R32). -/
structure StandIO where
  inputs      : StandInputs
  breakArmed  : Bool
  manualValue : Nat
  jogDeadline : Option Word
  duty        : Nat
  pendingDuty : Nat
  nextPeriod  : Word
  /-- The level of the DRIVE REF output (R26). -/
  driveOut    : Bool
deriving DecidableEq, Repr

/-! ### Reel measurement (04_reel_measurement.md) -/

inductive Validity where
  | none
  | valid
  | lost
deriving DecidableEq, Repr

/-- The spindle side (R52). -/
structure SpindleSide where
  ref        : Option Word
  cp         : Option Nat
  history    : List Nat
  estimate   : Nat
  validity   : Validity
  rejects    : Nat
  runoutFlag : Bool
  corrected  : Nat
  rejected   : Nat
deriving DecidableEq, Repr

/-- The last tab mark: latched µs time and line count, present together (R64). -/
structure TabStamp where
  time  : Word
  count : Word
deriving DecidableEq, Repr

/-- The tab side (R64). -/
structure TabSide where
  last      : Option TabStamp
  p         : Option Nat
  cTab      : Option Nat
  pp        : Option Nat
  rejects   : Nat
  deadline  : Option Word
  corrected : Nat
  rejected  : Nat
deriving DecidableEq, Repr

/-! ### Sequencer (05_the_splice_sequence.md) -/

/-- The twelve stand states, in the order of their codes (section 11.6). -/
inductive Phase where
  | idle
  | running
  | prepared
  | held
  | accelerating
  | matching
  | armed
  | pasting
  | cutting
  | indexing
  | winddown
  | faulted
deriving DecidableEq, Repr

inductive AbortCause where
  | hostAbort
  | matchTimeout
  | markLost
  | timingRange
  | lineSlow
  | lineFault
  | safe
  | webBreak
  | indexTimeout
  | standReset
deriving DecidableEq, Repr

inductive WinddownTarget where
  | held
  | idle
deriving DecidableEq, Repr

/-- The attempt fields (R72). -/
structure Attempt where
  fireTime  : Option Word
  nipTime   : Option Word
  k         : Option (Fin 2)
  nipCount  : Option Word
  knifeLate : Option Word
deriving DecidableEq, Repr

def Attempt.absent : Attempt := ⟨none, none, none, none, none⟩

/-- The sequencer (R72). -/
structure Sequencer where
  phase         : Phase
  changes       : Word
  cause         : Option AbortCause
  target        : Option WinddownTarget
  matchDeadline : Option Word
  indexDeadline : Option Word
  attempt       : Attempt
deriving DecidableEq, Repr

/-! ### Speed match (06_speed_match_and_drive_reference.md) -/

/-- The speed match (R98). -/
structure SpeedMatch where
  ref        : Nat
  kr         : Nat
  target     : Nat
  trim       : Int
  lastDev    : Option Int
  matchCount : Nat
  frozen     : Bool
  wdStep     : Option Nat
deriving DecidableEq, Repr

/-! ### Paste timing (07_paste_and_knife_timing.md) -/

inductive OneShot where
  | idle
  | delay
  | active
deriving DecidableEq, Repr

inductive Knife where
  | idle
  | wait
  | active
deriving DecidableEq, Repr

/-- Paste timing (R114). -/
structure PasteTiming where
  oneShot       : OneShot
  dwellEnd      : Option Word
  knife         : Knife
  knifeEnd      : Option Word
  knifeLateFlag : Bool
deriving DecidableEq, Repr

/-! ### Splice records (10_splice_records.md) -/

inductive RecordOutcome where
  | complete
  | faultAfterNip
  | aborted
deriving DecidableEq, Repr

/-- The result of a tracking entry's retirement, as the record unit receives it (R173, R174). -/
inductive Retirement where
  | delivered (copies : Nat) (span : Option (Word × Word))
  | lost
deriving DecidableEq, Repr

/-- The fields of a record that belong to a nip (R165). -/
structure NipFields where
  lineCount  : Word
  copyNumber : Word
  butt       : Nat
  trim       : Int
  k          : Fin 2
deriving DecidableEq, Repr

/-- A splice record (R165). -/
structure SpliceRecord where
  serial        : Nat
  outcome       : Option RecordOutcome
  cause         : Option AbortCause
  knifeLate     : Bool
  trackOverflow : Bool
  newId         : Word
  expiredId     : Word
  nip           : Option NipFields
  diameter      : Nat
  lastDev       : Option Int
  delivery      : Option Retirement
deriving DecidableEq, Repr

inductive RecordPhase where
  | open
  | waiting
deriving DecidableEq, Repr

/-- A record in a pending slot with its phase (R163). -/
structure PendingRecord where
  record : SpliceRecord
  phase  : RecordPhase
deriving DecidableEq, Repr

/-- The last retirement that found no record (R175). -/
structure UnmatchedReport where
  serial : Nat
  result : Retirement
deriving DecidableEq, Repr

/-- The record unit's state of one stand (R163). -/
structure StandRecords where
  pending        : Option PendingRecord
  dropped        : Nat
  report         : Option UnmatchedReport
  unmatchedCount : Word
deriving DecidableEq, Repr

/-! ### One stand -/

/-- The six replicated blocks of one stand, its record slot and its two update counts. -/
structure Stand where
  io          : StandIO
  running     : Option RunningReel
  ready       : Option Reel
  setup       : Setup
  staged      : StagedTiming
  spindle     : SpindleSide
  tab         : TabSide
  seq         : Sequencer
  speed       : SpeedMatch
  paste       : PasteTiming
  records     : StandRecords
  updateCount : Word
  imageCount  : Word
deriving DecidableEq, Repr

/-- The stand interface at the end of a reset (R32). -/
def StandIO.atReset (pins : BitVec 8) : StandIO where
  inputs      := .atReset pins
  breakArmed  := true
  manualValue := 0
  jogDeadline := none
  duty        := 0
  pendingDuty := 0
  nextPeriod  := 0
  driveOut    := false

/-- The spindle side after device reset (R71). -/
def SpindleSide.atReset : SpindleSide := ⟨none, none, [], 0, .none, 0, false, 0, 0⟩

/-- The tab side after device reset (R71). -/
def TabSide.atReset : TabSide := ⟨none, none, none, none, 0, none, 0, 0⟩

/-- The sequencer after device reset (R96). -/
def Sequencer.atReset : Sequencer := ⟨.idle, 0, none, none, none, none, .absent⟩

/-- The speed match after device reset (R112). -/
def SpeedMatch.atReset : SpeedMatch := ⟨0, 0, 0, 0, none, 0, false, none⟩

/-- Paste timing after device reset (R132). -/
def PasteTiming.atReset : PasteTiming := ⟨.idle, none, .idle, none, false⟩

/-- The record unit's state of a stand after device reset (R163). -/
def StandRecords.atReset : StandRecords := ⟨none, 0, none, 0⟩

/-- A stand at the end of a reset. -/
def Stand.atReset (pins : BitVec 8) : Stand where
  io          := .atReset pins
  running     := none
  ready       := none
  setup       := .defaults
  staged      := .empty
  spindle     := .atReset
  tab         := .atReset
  seq         := .atReset
  speed       := .atReset
  paste       := .atReset
  records     := .atReset
  updateCount := 0
  imageCount  := 0

/-! ### Clearance arbiter (08_splice_clearance.md) -/

/-- The clearance arbiter (R133). -/
structure Arbiter where
  holder       : Option StandNo
  lastNip      : Word
  lastNipValid : Bool
  requests     : Vector Bool 8
  grants       : Word
  releases     : Nat
deriving DecidableEq, Repr

/-- The arbiter after device reset (R133). -/
def Arbiter.atReset : Arbiter := ⟨none, 0, false, Vector.replicate 8 false, 0, 0⟩

/-! ### Splice tracker and gate scheduler (09_splice_tracking_and_the_waste_gate.md) -/

/-- A copy's fate, and the level of the GATE output that delivers or diverts it (R141). -/
inductive Fate where
  | pass
  | divert
deriving DecidableEq, Repr

/-- A tracking entry (R142). -/
structure TrackEntry where
  serial    : Nat
  stand     : StandNo
  zoneStart : Word
  zoneEnd   : Word
  copies    : Nat
  span      : Option (Word × Word)
deriving DecidableEq, Repr

/-- A run of the gate run queue (R148). -/
structure Run where
  fate  : Fate
  count : Nat
deriving DecidableEq, Repr

inductive GateMode where
  | normal
  | forceDivert
  | forcePass
  | frozen
deriving DecidableEq, Repr

/-- A mode that GATE OVERRIDE may make pending (R155). -/
inductive PendingMode where
  | normal
  | forceDivert
  | forcePass
deriving DecidableEq, Repr

/-- The splice tracker and gate scheduler (R141). The run queue stands head first. -/
structure Tracker where
  entries     : List TrackEntry
  queue       : List Run
  mode        : GateMode
  pendingMode : Option PendingMode
  frozenLevel : Option Fate
  lastStatus  : CutStatus
  output      : Fate
  diverted    : Word
  degraded    : Nat
  overflows   : Nat
deriving DecidableEq, Repr

/-- The tracker after device reset (R160). -/
def Tracker.atReset : Tracker := ⟨[], [], .normal, none, none, .normal, .divert, 0, 0, 0⟩

/-! ### Record unit and table interface -/

/-- The line-wide state of the record unit (R163): the next serial, and the stands whose pending slot holds
a record, oldest record first. -/
structure RecordUnit where
  nextSerial : Nat
  order      : List StandNo
deriving DecidableEq, Repr

/-- The record unit after device reset (R163). -/
def RecordUnit.atReset : RecordUnit := ⟨1, []⟩

/-- The table interface and notice unit (R179, R183, R185 to R188). -/
structure HostSide where
  attention   : BitVec 18
  notice      : BitVec 24
  enable      : BitVec 24
  level       : BitVec 24
  init        : Bool
  /-- The model's own field (log entry 6): how many of the first two steps of R189 are done, each as a whole (log entry
  29). -/
  initStage   : Nat
  /-- The RESET pin is held low: a reset lasts (R188). -/
  resetLow    : Bool
  lineUpdates : Word
deriving DecidableEq, Repr

/-- The table interface and notice unit right after a device reset (R188). -/
def HostSide.atReset (resetLow : Bool) : HostSide where
  attention   := 0
  notice      := 0
  enable      := 0
  level       := 0x00BD00
  init        := true
  initStage   := 0
  resetLow    := resetLow
  lineUpdates := 0

/-- The sample instants of the two filter rates (R15, R16): µs since the last one. The model's own fields
(log entry 8). -/
structure SamplePhases where
  fast : Nat
  slow : Nat
deriving DecidableEq, Repr

/-- The table area: the listed bytes by offset, offsets strictly rising, none equal to what an unlisted
offset reads as (log entry 5). -/
abbrev Memory := List Host.Cell

/-- The whole state of the part. -/
structure State where
  line    : LineRef
  safe    : Input
  stands  : Vector Stand 8
  arbiter : Arbiter
  tracker : Tracker
  records : RecordUnit
  host    : HostSide
  phases  : SamplePhases
  mem     : Memory
  /-- The model's own counter of the free values read so far (log entry 6). -/
  free    : Nat
  /-- The commands that wait, first in first out. -/
  pending : List Instr
deriving DecidableEq, Repr

/-- A value for each of the eight stands from a value for each. -/
def mapStands {α β : Type} (f : α → β) (v : Vector α 8) : Vector β 8 :=
  #v[f v[0], f v[1], f v[2], f v[3], f v[4], f v[5], f v[6], f v[7]]

/-- Every block at its reset values, the filters at the levels of `pins` (R188). The table area, the free
value counter and the queue of commands are no block's state: they stand as given. -/
def State.afterReset (pins : Pins) (resetLow : Bool) (mem : Memory) (free : Nat) (pending : List Instr) : State where
  line    := .atReset pins
  safe    := .atReset pins.safe
  stands  := mapStands Stand.atReset pins.stands
  arbiter := .atReset
  tracker := .atReset
  records := .atReset
  host    := .atReset resetLow
  phases  := ⟨0, 0⟩
  mem     := mem
  free    := free
  pending := pending

/-- The pin levels of `State.reset` (DESIGN CHOICE, log entry 7): SAFE high (released), all others low. -/
def pinsAtReset : Pins := ⟨false, false, false, true, Vector.replicate 8 0⟩

/-- The part right after a device reset has ended: INIT is 1 and the table-area initialisation has begun. -/
def State.reset : State := .afterReset pinsAtReset false [] 0 []

end Sys2Proof.Machine
end

