-- ==== Sys2Proof/Machine/Memory.lean ====
section
/-!
DEFINITION. The operations over the table area (R177, R178): bytes by offset, words little-endian.
-/
namespace Sys2Proof.Machine

/-- The size of the table area in bytes (R177). -/
def tableBytes : Nat := 0x2000

/-- What an unlisted offset reads as (DESIGN CHOICE, log entry 5: the spec gives no contents before the
initialisation writes, and none ever for the host's own words). -/
def unlistedByte : Byte := 0

/-- The byte at an offset. -/
def Memory.read : Memory → Nat → Byte
  | [], _ => unlistedByte
  | (k, b) :: rest, a => if k = a then b else Memory.read rest a

/-- The canonical form: offsets strictly rising and inside the table area, no entry equal to what an unlisted
offset reads as. -/
abbrev Memory.wf (m : Memory) : Prop :=
  m.Pairwise (fun x y => x.1 < y.1) ∧ ∀ c ∈ m, c.2 ≠ unlistedByte ∧ c.1 < tableBytes

/-- The entries of a run of bytes from offset `a` on, without those an unlisted offset reads as. -/
def cellsFrom : Nat → List Byte → Memory
  | _, [] => []
  | a, b :: rest => if b = unlistedByte then cellsFrom (a + 1) rest else (a, b) :: cellsFrom (a + 1) rest

/-- Store a run of bytes at the offsets from `base` on. -/
def Memory.store (m : Memory) (base : Nat) (bytes : List Byte) : Memory :=
  m.filter (fun c => c.1 < base) ++ cellsFrom base bytes ++ m.filter (fun c => base + bytes.length ≤ c.1)

/-- The four bytes of a word, least significant first (section 5.6). -/
def bytesOfWord (w : Word) : List Byte :=
  [w.extractLsb' 0 8, w.extractLsb' 8 8, w.extractLsb' 16 8, w.extractLsb' 24 8]

/-- The word at a byte offset, little-endian (section 5.6). -/
def Memory.readWord (m : Memory) (a : Nat) : Word :=
  m.read (a + 3) ++ m.read (a + 2) ++ m.read (a + 1) ++ m.read a

/-- Store one word at a byte offset, little-endian. -/
def Memory.writeWord (m : Memory) (a : Nat) (w : Word) : Memory := m.store a (bytesOfWord w)

/-- Store consecutive words from a byte offset on. -/
def Memory.writeWords (m : Memory) (a : Nat) (ws : List Word) : Memory := m.store a (ws.flatMap bytesOfWord)

/-- Write 0 to every word of a stretch of the table area (R189). -/
def Memory.clear (m : Memory) (a words : Nat) : Memory := m.writeWords a (List.replicate words 0)

/-! ### The areas of R178 -/

/-- The offset of a slot (R178). -/
def slotBase : Slot → Nat
  | .line => 0x0000
  | .command i => 0x0040 + 64 * i.val
  | .order i => 0x0240 + 128 * i.val

/-- The offset of the line status block (R178). -/
def lineBlockBase : Nat := 0x0640

/-- The offset of a stand's status block (R178). -/
def standBlockBase (i : StandNo) : Nat := 0x0740 + 128 * i.val

/-- The offset of entry e of the splice record table (R178). -/
def recordBase (e : Nat) : Nat := 0x0B40 + 64 * e

end Sys2Proof.Machine
end

