-- ==== Sys2Proof/Machine/Ops.lean ====
section
/-!
DEFINITION. The operations that several blocks share: one stand of the state, the notices, the counts of
block rewrites, and the change of a stand's state (R73) with everything that belongs to it.
-/
namespace Sys2Proof.Machine

/-! ### Parts of the state -/

/-- Stand i. -/
def State.stand (s : State) (i : StandNo) : Stand := s.stands[i.val]

/-- The state with another stand i. -/
def State.setStand (s : State) (i : StandNo) (d : Stand) : State := { s with stands := s.stands.set i.val d i.isLt }

/-- The state with stand i changed by f. -/
def State.modStand (s : State) (i : StandNo) (f : Stand → Stand) : State := s.setStand i (f (s.stand i))

/-- The state with the line reference changed by f. -/
def State.modLine (s : State) (f : LineRef → LineRef) : State := { s with line := f s.line }

/-- The state with the clearance arbiter changed by f. -/
def State.modArbiter (s : State) (f : Arbiter → Arbiter) : State := { s with arbiter := f s.arbiter }

/-- The state with the tracker changed by f. -/
def State.modTracker (s : State) (f : Tracker → Tracker) : State := { s with tracker := f s.tracker }

/-- The state with the line-wide record unit changed by f. -/
def State.modRecords (s : State) (f : RecordUnit → RecordUnit) : State := { s with records := f s.records }

/-- The state with the table interface changed by f. -/
def State.modHost (s : State) (f : HostSide → HostSide) : State := { s with host := f s.host }

/-- The state with another table area. -/
def State.setMem (s : State) (m : Memory) : State := { s with mem := m }

/-- The stand state of stand i. -/
def State.phase (s : State) (i : StandNo) : Phase := (s.stand i).seq.phase

/-- Apply an operation for stands 0 to 7 in turn. -/
def forStands (f : StandNo → State → State) (s : State) : State := standNumbers.foldl (fun s i => f i s) s

/-- SAFE is asserted while its conditioned level is low (R23). -/
def State.safeAsserted (s : State) : Bool := !s.safe.level

/-! ### Notices (R185) -/

/-- The notices of R185. -/
inductive Notice where
  | slotDone
  | spliceDone
  | spliceAbort
  | delivered
  | tableFull
  | trackOverflow
  | gateDegraded
  | cutLost
  | cutFault
  | encError
  | encFault
  | webBreak
  | safe
  | runout
  | diameterLost
  | standFault
  | standNews (i : StandNo)
deriving DecidableEq, Repr

/-- The bit of a notice in NOTICE, NOTICE ENABLE and NOTICE LEVEL (R185). -/
def noticeBit : Notice → Nat
  | .slotDone => 0
  | .spliceDone => 1
  | .spliceAbort => 2
  | .delivered => 3
  | .tableFull => 4
  | .trackOverflow => 5
  | .gateDegraded => 6
  | .cutLost => 7
  | .cutFault => 8
  | .encError => 9
  | .encFault => 10
  | .webBreak => 11
  | .safe => 12
  | .runout => 13
  | .diameterLost => 14
  | .standFault => 15
  | .standNews i => 16 + i.val

/-- Raise a notice: its bit is set, and stays set if it was (R185). -/
def raise (n : Notice) (s : State) : State :=
  s.modHost fun h => { h with notice := h.notice ||| BitVec.twoPow 24 (noticeBit n) }

/-! ### Rewrite events (R183)

A rewrite event counts in the block's update count at once; the words of the block are written at the end
of the whole event, by `commit` (log entry 4). -/

/-- A rewrite event of stand i's status block; while INIT is 1 it writes nothing (R183). -/
def touchStand (i : StandNo) (s : State) : State :=
  if s.host.init then s else s.modStand i fun d => { d with updateCount := d.updateCount + 1 }

/-- A rewrite event of the line status block; while INIT is 1 it writes nothing (R183). -/
def touchLine (s : State) : State :=
  if s.host.init then s else s.modHost fun h => { h with lineUpdates := h.lineUpdates + 1 }

/-- A record event of stand i: STAND NEWS and a rewrite (R175). -/
def recordEvent (i : StandNo) (s : State) : State := touchStand i (raise (.standNews i) s)

/-! ### The drive reference (R26, R27, R99) -/

/-- Set the drive reference, and the pending DRIVE REF value with it (R99). -/
def Stand.setRef (r : Nat) (d : Stand) : Stand :=
  { d with speed := { d.speed with ref := r }, io := { d.io with pendingDuty := r } }

/-- The duty register and the pending value go to 0 at once, and the output inactive (R27). -/
def Stand.forceDuty (d : Stand) : Stand :=
  { d with io := { d.io with duty := 0, pendingDuty := 0, driveOut := false } }

/-- The settings of R99 at an entry to IDLE, RUNNING, PREPARED, HELD, INDEXING or FAULTED. -/
def Stand.restDrive (d : Stand) : Stand :=
  Stand.setRef 0 { d with speed := { d.speed with frozen := false, wdStep := none } }

/-! ### The tab deadline (R69) -/

/-- The last tab mark time + 2 × Pp, present only while both are (R69). -/
def TabSide.deadlineOf (t : TabSide) : Option Word :=
  match t.last, t.pp with
  | some m, some pp => some (m.time + BitVec.ofNat 32 (2 * pp))
  | _, _ => none

/-! ### Entries of the stand states -/

/-- A splice state: on entry to it a jog hold ends (R31, R73). -/
def Phase.isSplice : Phase → Bool
  | .accelerating | .matching | .armed | .pasting | .cutting | .indexing | .winddown => true
  | .idle | .running | .prepared | .held | .faulted => false

/-- What every change of state does (R73): the state and its count, the deadlines and the target that belong
to the state left, the tab deadline outside MATCHING and ARMED (R69), and a jog hold on entry to a splice
state (R31). -/
def Stand.changePhase (p : Phase) (d : Stand) : Stand :=
  { d with
    seq := { d.seq with
      phase := p, changes := d.seq.changes + 1, matchDeadline := none, indexDeadline := none, target := none }
    tab := { d.tab with deadline := if p = .matching ∨ p = .armed then d.tab.deadline else none }
    io := { d.io with jogDeadline := if p.isSplice then none else d.io.jogDeadline } }

/-- Entry to ACCELERATING (R65, R80, R100, R114). -/
def Stand.beginAttempt (d : Stand) : Stand :=
  Stand.setRef 0
    { d with
      seq := { d.seq with cause := none, attempt := .absent }
      speed := { d.speed with
        kr := 0, trim := 0, matchCount := 0, target := 0, lastDev := none, frozen := false, wdStep := none }
      paste := { d.paste with knifeLateFlag := false }
      tab := { d.tab with last := none, p := none, cTab := none, pp := none, deadline := none, rejects := 0 } }

/-- Entry to MATCHING: the match deadline and the tab deadline (R69, R81). -/
def Stand.beginMatching (clock : Word) (d : Stand) : Stand :=
  { d with
    seq := { d.seq with matchDeadline := some (clock + BitVec.ofNat 32 (1000 * d.setup.tMatch)) }
    tab := { d.tab with deadline := d.tab.deadlineOf } }

/-- Entry to INDEXING: the index deadline (R86), the drive reference 0 (R99) and the one-shot back to IDLE
(R122). -/
def Stand.beginIndexing (clock : Word) (d : Stand) : Stand :=
  Stand.restDrive
    { d with
      seq := { d.seq with indexDeadline := some (clock + 20000000) }
      paste := { d.paste with oneShot := .idle, dwellEnd := none } }

/-- Entry to WINDDOWN: the winddown step from the reference at the entry (R109). -/
def Stand.beginWinddown (d : Stand) : Stand :=
  { d with speed := { d.speed with
      wdStep := some (max 1 (roundDiv (d.speed.ref * 10) d.setup.tAcc)), frozen := false, matchCount := 0 } }

/-- What the entry to a state sets, beside `changePhase`. -/
def Stand.onEntry (clock : Word) : Phase → Stand → Stand
  | .idle, d | .running, d | .prepared, d | .held, d => d.restDrive
  | .accelerating, d => d.beginAttempt
  | .matching, d => d.beginMatching clock
  | .armed, d | .pasting, d | .cutting, d => d
  | .indexing, d => d.beginIndexing clock
  | .winddown, d => d.beginWinddown
  | .faulted, d => d.restDrive.forceDuty

/-- A change of stand i's state (R73): the entry's settings, STAND NEWS and a rewrite of its status block. -/
def enter (i : StandNo) (p : Phase) (s : State) : State :=
  recordEvent i (s.modStand i fun d => (d.changePhase p).onEntry s.line.usClock p)

end Sys2Proof.Machine
end

