-- ==== Sys2Proof/Machine/Flags.lean ====
section
/-!
DEFINITION. The lines and registers formed from the state: the interrupt lines, the top notice and the reads
of the unit registers (R177, R185 to R187), and the outputs of the stands (R25, R28).
-/
namespace Sys2Proof.Machine

/-! ### Interrupt lines and register reads -/

/-- The notices that drive ALERT: pending, enabled and of ALERT level (R186). -/
def HostSide.alertBits (h : HostSide) : BitVec 24 := h.notice &&& h.enable &&& h.level

/-- The notices that drive NOTE: pending, enabled and of NOTE level (R186). -/
def HostSide.noteBits (h : HostSide) : BitVec 24 := h.notice &&& h.enable &&& ~~~h.level

/-- The ALERT line (R186). -/
def State.alertLine (s : State) : Bool := s.host.alertBits != 0

/-- The NOTE line (R186). -/
def State.noteLine (s : State) : Bool := s.host.noteBits != 0

/-- The number of the lowest bit set, from bit n on, looking at `fuel` bits. -/
def lowestBit (v : BitVec 24) : Nat → Nat → Option Nat
  | _, 0 => none
  | n, fuel + 1 => if v.getLsbD n then some n else lowestBit v (n + 1) fuel

/-- The top notice (R187): the lowest ALERT bit, else the lowest NOTE bit, else 63. -/
def HostSide.topNotice (h : HostSide) : Nat :=
  match lowestBit h.alertBits 0 24 with
  | some n => n
  | none => (lowestBit h.noteBits 0 24).getD 63

/-- The version code (R187). -/
def versionCode : Nat := 0x12

/-- A host read of a unit register (R177, R187). -/
def State.registerRead (s : State) (offset : Word) : Word :=
  match offset.toNat with
  | 0x00 => s.host.attention.setWidth 32
  | 0x04 => s.host.notice.setWidth 32
  | 0x08 => s.host.enable.setWidth 32
  | 0x0C => s.host.level.setWidth 32
  | 0x10 => packWord [⟨0, 1, flag s.host.init⟩, ⟨8, 6, s.host.topNotice⟩, ⟨24, 8, versionCode⟩]
  | _ => 0

/-- A host read of a word of the table area (R177). DESIGN CHOICE: R189 gives the steps of the initialisation no times, and
while INIT is 1 a read sees the contents from before the reset until a host write or INITIALISATION_END moves the stage on
(log entry 28). -/
def State.tableRead (s : State) (offset : Nat) : Word := s.mem.readWord offset

/-! ### Outputs of a stand (R25, R26, R28); all are inactive while a reset lasts (R32, R188) -/

/-- The PASTE output (R25). -/
def State.pasteOut (s : State) (i : StandNo) : Bool :=
  let d := s.stand i
  !s.host.resetLow && (d.seq.phase == .pasting || d.seq.phase == .cutting) && d.paste.oneShot == .active
    && !s.safeAsserted

/-- The KNIFE output (R25). -/
def State.knifeOut (s : State) (i : StandNo) : Bool :=
  let d := s.stand i
  !s.host.resetLow && d.seq.phase == .cutting && d.paste.knife == .active && !s.safeAsserted

/-- The INDEX output (R25). -/
def State.indexOut (s : State) (i : StandNo) : Bool :=
  let d := s.stand i
  !s.host.resetLow && (d.seq.phase == .indexing || d.io.jogDeadline.isSome) && !s.safeAsserted

/-- The DRIVE REF output (R26). -/
def State.driveRefOut (s : State) (i : StandNo) : Bool := !s.host.resetLow && (s.stand i).io.driveOut

/-- The AUTO pattern of the group that holds the stand's state (R28). -/
def Stand.autoPattern (d : Stand) : Nat :=
  match d.seq.phase with
  | .running | .prepared | .held => d.setup.patRun
  | .accelerating | .matching | .winddown => d.setup.patAccel
  | .armed | .pasting | .cutting => d.setup.patSplice
  | .indexing => d.setup.patIndex
  | .idle | .faulted => 0

/-- The value on PHASE 0 to 2 (R28). -/
def Stand.phaseLines (d : Stand) : Nat :=
  match d.setup.phaseMode with
  | .auto => d.autoPattern
  | .manual => d.io.manualValue

/-- The PHASE lines of stand i; inactive while a reset lasts (R32). -/
def State.phaseOut (s : State) (i : StandNo) : Nat := if s.host.resetLow then 0 else (s.stand i).phaseLines

/-- The GATE output is active for deliver (R152); inactive while a reset lasts (R160). -/
def State.gateOut (s : State) : Bool := !s.host.resetLow && s.tracker.output == .pass

end Sys2Proof.Machine
end

