-- ==== Sys2Proof/Machine/Lengths.lean ====
section
/-!
DEFINITION. The lengths that reel measurement derives for other blocks (R36, R61 to R63), and the shared
ratio tests (R55, R66).
-/
namespace Sys2Proof.Machine

/-- L(X) (R61): the length of paper from the estimate D down to the diameter X at caliper t. -/
def remainingLength (estimate caliper x : Nat) : Nat :=
  if estimate ≤ x then 0
  else min (roundDiv ((estimate * estimate - x * x) * 7854) (100 * caliper)) max32

/-- The runout diameter of a running reel: its core diameter + 20 (R36). -/
def Reel.runoutDiameter (r : Reel) : Nat := r.core + 20

/-- L_splice, with a running record present (R62). -/
def Stand.lSplice (d : Stand) : Option Nat :=
  d.running.map fun r => remainingLength d.spindle.estimate r.reel.caliper r.reel.splice

/-- L_runout, with a running record present (R62). -/
def Stand.lRunout (d : Stand) : Option Nat :=
  d.running.map fun r => remainingLength d.spindle.estimate r.reel.caliper r.reel.runoutDiameter

/-- The butt length, with a running record present (R62). -/
def Stand.buttLength (d : Stand) : Option Nat :=
  d.running.map fun r => remainingLength d.spindle.estimate r.reel.caliper r.reel.core

/-- L_lead (R63), from V_line of the last speed sample. -/
def Stand.lLead (vLine : Nat) (d : Stand) : Nat := roundDiv (vLine * (d.setup.tAcc + d.setup.tSettle)) 10

/-- L_runout as the clearance arbiter takes it (R62, R137): the largest value unless validity is VALID. DESIGN CHOICE: a stand
that is VALID without a running record, which the law of R72 rules out for a requester and of which R137 says nothing, is
taken with the largest value too (log entry 16). -/
def Stand.urgency (d : Stand) : Nat :=
  match d.spindle.validity with
  | .valid => d.lRunout.getD max32
  | .none | .lost => max32

/-- The circumference of a diameter in line counts: round(D × 31416 / 10000) (R54, R103). -/
def circumference (diameter : Nat) : Nat := roundDiv (diameter * 31416) 10000

/-- The outcome of the ratio tests. -/
inductive Judgement where
  | accepted
  | corrected
  | rejected
deriving DecidableEq, Repr

/-- The pair of ratio tests that serves both sensors (R55, R66): 90 % to 110 % of the last value is accepted,
175 % to 225 % is a pair with one mark missed, anything else is rejected. -/
def ratioTest (x reference : Nat) : Judgement :=
  if 9 * reference ≤ 10 * x ∧ 10 * x ≤ 11 * reference then .accepted
  else if 7 * reference ≤ 4 * x ∧ 4 * x ≤ 9 * reference then .corrected
  else .rejected

end Sys2Proof.Machine
end

