-- ==== Sys2Proof/Machine/Blocks.lean ====
section
/-!
DEFINITION. What the part writes for the host: the status blocks, the configuration image and the record
entries in the layouts of section 11.6, and `commit`, which ends an event by writing the blocks whose rewrite
events it held (R183, R184; log entry 4).
-/
namespace Sys2Proof.Machine

/-! ### Codes (section 11.6) -/

def Phase.code : Phase → Nat
  | .idle => 0
  | .running => 1
  | .prepared => 2
  | .held => 3
  | .accelerating => 4
  | .matching => 5
  | .armed => 6
  | .pasting => 7
  | .cutting => 8
  | .indexing => 9
  | .winddown => 10
  | .faulted => 11

def causeCode : Option AbortCause → Nat
  | none => 0
  | some .hostAbort => 1
  | some .matchTimeout => 2
  | some .markLost => 3
  | some .timingRange => 4
  | some .lineSlow => 5
  | some .lineFault => 6
  | some .safe => 7
  | some .webBreak => 8
  | some .indexTimeout => 9
  | some .standReset => 10

def targetCode : Option WinddownTarget → Nat
  | none => 0
  | some .held => 1
  | some .idle => 2

/-- k in a block or record: absent 0, k = 0 as 1, k = 1 as 2. -/
def kCode : Option (Fin 2) → Nat
  | none => 0
  | some k => k.val + 1

def Validity.code : Validity → Nat
  | .none => 0
  | .valid => 1
  | .lost => 2

def OneShot.code : OneShot → Nat
  | .idle => 0
  | .delay => 1
  | .active => 2

def Knife.code : Knife → Nat
  | .idle => 0
  | .wait => 1
  | .active => 2

def FilterRate.code : FilterRate → Nat
  | .fast => 0
  | .slow => 1

def EdgeSelect.code : EdgeSelect → Nat
  | .none => 0
  | .rise => 1
  | .fall => 2

def TabSelect.code : TabSelect → Nat
  | .a => 0
  | .b => 1

def PhaseMode.code : PhaseMode → Nat
  | .auto => 0
  | .manual => 1

def outcomeCode : Option RecordOutcome → Nat
  | none => 0
  | some .complete => 1
  | some .faultAfterNip => 2
  | some .aborted => 3

def RecordPhase.code : RecordPhase → Nat
  | .open => 0
  | .waiting => 1

def deliveryCode : Option Retirement → Nat
  | none => 0
  | some (.delivered _ _) => 1
  | some .lost => 2

def CutStatus.code : CutStatus → Nat
  | .normal => 0
  | .synthetic => 1
  | .fault => 2

def boundaryCode : Option BoundaryKind → Nat
  | none => 0
  | some .real => 1
  | some .synthetic => 2

def GateMode.code : GateMode → Nat
  | .normal => 0
  | .forceDivert => 1
  | .forcePass => 2
  | .frozen => 3

def pendingModeCode : Option PendingMode → Nat
  | none => 0
  | some .normal => 1
  | some .forceDivert => 2
  | some .forcePass => 3

def frozenCode : Option Fate → Nat
  | none => 0
  | some .pass => 1
  | some .divert => 2

/-- PASS is 1 in a fate bit. -/
def Fate.code : Fate → Nat
  | .pass => 1
  | .divert => 0

def Retirement.copies : Retirement → Nat
  | .delivered copies _ => copies
  | .lost => 0

def Retirement.span : Retirement → Option (Word × Word)
  | .delivered _ span => span
  | .lost => none

/-! ### Stand status block -/

/-- Word 7: the knife-late deadline in WAIT, the knife end time in ACTIVE, the jog hold deadline in a hold. -/
def Stand.timer (d : Stand) : Option Word :=
  match d.paste.knife with
  | .wait => d.seq.attempt.knifeLate
  | .active => d.paste.knifeEnd
  | .idle => d.io.jogDeadline

/-- Word 3: the match deadline in MATCHING, the index deadline in INDEXING. -/
def Stand.stateDeadline (d : Stand) : Option Word :=
  match d.seq.phase with
  | .matching => d.seq.matchDeadline
  | .indexing => d.seq.indexDeadline
  | _ => none

/-- A history value, 16 bits saturated. -/
def historyAt (h : List Nat) (n : Nat) : Nat := min (h.getD n 0) max16

/-- The conditioned level of BREAK k+1. -/
def StandInputs.breakLevel (x : StandInputs) (k : Fin 4) : Bool := (x.breaks[k.val]).level

/-- The 32 words of a stand status block (section 11.6), with the update count given. -/
def standBlock (vLine : Nat) (d : Stand) : List Word :=
  let inp := d.io.inputs
  let rep := d.records.report
  let repSpan := (rep.map fun r => r.result.span).join
  [ packWord [⟨0, 4, d.seq.phase.code⟩, ⟨4, 4, causeCode d.seq.cause⟩, ⟨8, 2, targetCode d.seq.target⟩,
      ⟨10, 2, kCode d.seq.attempt.k⟩, ⟨12, 2, d.spindle.validity.code⟩, ⟨14, 2, d.speed.matchCount⟩,
      ⟨16, 2, d.paste.oneShot.code⟩, ⟨18, 2, d.paste.knife.code⟩, ⟨20, 1, flag d.speed.frozen⟩,
      ⟨21, 1, flag d.paste.knifeLateFlag⟩, ⟨22, 1, flag d.spindle.runoutFlag⟩, ⟨23, 1, flag d.io.breakArmed⟩,
      ⟨24, 1, flag d.io.jogDeadline.isSome⟩, ⟨25, 1, d.setup.phaseMode.code⟩, ⟨26, 3, d.spindle.history.length⟩,
      ⟨29, 1, flag d.running.isSome⟩, ⟨30, 1, flag d.ready.isSome⟩],
    d.seq.changes,
    packWord [⟨0, 1, flag d.stateDeadline.isSome⟩, ⟨1, 1, flag d.seq.attempt.fireTime.isSome⟩,
      ⟨2, 1, flag d.seq.attempt.nipTime.isSome⟩, ⟨3, 1, flag d.seq.attempt.nipCount.isSome⟩,
      ⟨4, 1, flag d.timer.isSome⟩, ⟨5, 1, flag d.spindle.ref.isSome⟩, ⟨6, 1, flag d.tab.last.isSome⟩,
      ⟨7, 1, flag d.tab.p.isSome⟩, ⟨8, 1, flag d.tab.cTab.isSome⟩, ⟨9, 1, flag d.tab.pp.isSome⟩,
      ⟨10, 1, flag d.speed.lastDev.isSome⟩, ⟨11, 1, flag d.speed.wdStep.isSome⟩,
      ⟨12, 1, flag d.records.pending.isSome⟩, ⟨13, 1, flag rep.isSome⟩,
      ⟨14, 1, flag (rep.map (fun r => r.result) == some .lost)⟩, ⟨15, 1, flag repSpan.isSome⟩,
      ⟨16, 1, flag inp.spindle.level⟩, ⟨17, 1, flag inp.tabA.level⟩, ⟨18, 1, flag inp.tabB.level⟩,
      ⟨19, 1, flag inp.indexHome.level⟩, ⟨20, 1, flag (inp.breakLevel 0)⟩, ⟨21, 1, flag (inp.breakLevel 1)⟩,
      ⟨22, 1, flag (inp.breakLevel 2)⟩, ⟨23, 1, flag (inp.breakLevel 3)⟩, ⟨24, 3, d.phaseLines⟩,
      ⟨27, 3, d.io.manualValue⟩],
    wordOf d.stateDeadline,
    wordOf d.seq.attempt.fireTime,
    wordOf d.seq.attempt.nipTime,
    wordOf d.seq.attempt.nipCount,
    wordOf d.timer,
    wordOf d.spindle.ref,
    packWord [⟨0, 16, historyAt d.spindle.history 0⟩, ⟨16, 16, historyAt d.spindle.history 1⟩],
    packWord [⟨0, 16, historyAt d.spindle.history 2⟩, ⟨16, 16, historyAt d.spindle.history 3⟩],
    packWord [⟨0, 14, d.spindle.estimate⟩, ⟨16, 8, min d.spindle.rejects 255⟩, ⟨24, 8, min d.tab.rejects 255⟩],
    natWord d.lSplice,
    natWord d.lRunout,
    BitVec.ofNat 32 (d.lLead vLine),
    wordOf (d.tab.last.map fun t => t.time),
    wordOf (d.tab.last.map fun t => t.count),
    natWord d.tab.p,
    natWord d.tab.cTab,
    natWord d.tab.pp,
    packWord [⟨0, 16, min d.spindle.corrected max16⟩, ⟨16, 16, min d.spindle.rejected max16⟩],
    packWord [⟨0, 16, min d.tab.corrected max16⟩, ⟨16, 16, min d.tab.rejected max16⟩],
    packWord [⟨0, 12, d.speed.ref⟩, ⟨12, 12, d.speed.target⟩, ⟨24, 8, signedBits 8 d.speed.trim⟩],
    packWord [⟨0, 11, signedBits 11 (d.speed.lastDev.getD 0)⟩, ⟨11, 14, d.speed.kr⟩],
    packWord [⟨0, 12, d.io.duty⟩, ⟨12, 12, d.speed.wdStep.getD 0⟩],
    match d.records.pending with
      | none => 0
      | some q => packWord [⟨0, 16, q.record.serial⟩, ⟨16, 1, q.phase.code⟩, ⟨17, 2, outcomeCode q.record.outcome⟩,
          ⟨19, 2, deliveryCode q.record.delivery⟩],
    BitVec.ofNat 32 d.records.dropped,
    d.records.unmatchedCount,
    match rep with
      | none => 0
      | some r => packWord [⟨0, 16, r.serial⟩, ⟨16, 16, r.result.copies⟩],
    wordOf (repSpan.map Prod.fst),
    wordOf (repSpan.map Prod.snd),
    d.updateCount ]

/-- Write stand i's status block from the state (R183). -/
def writeStandBlock (i : StandNo) (s : State) : State :=
  s.setMem (s.mem.writeWords (standBlockBase i) (standBlock s.line.vLine (s.stand i)))

/-! ### Line status block -/

/-- Two serials in one word, low half first; 0 beyond the last entry. -/
def serialPair (es : List TrackEntry) (n : Nat) : Word :=
  let serialAt (k : Nat) : Nat := ((es[k]?).map fun e => e.serial).getD 0
  packWord [⟨0, 16, serialAt (2 * n)⟩, ⟨16, 16, serialAt (2 * n + 1)⟩]

/-- The sum of the counts of a run queue (R148). -/
def queueSum (q : List Run) : Nat := (q.map fun r => r.count).sum

/-- The words 0 to 34 of the line status block (section 11.6). -/
def lineBlockHead (s : State) : List Word :=
  let l := s.line
  let a := s.arbiter
  let t := s.tracker
  let head := t.queue.head?
  [ packWord [⟨0, 2, l.cutStatus.code⟩, ⟨2, 2, boundaryCode l.lastKind⟩, ⟨4, 1, flag l.encoderFault⟩,
      ⟨5, 1, flag s.safeAsserted⟩, ⟨6, 1, flag l.boundaryRef.isSome⟩,
      ⟨8, 4, (a.holder.map fun i => i.val).getD 15⟩, ⟨12, 1, flag a.lastNipValid⟩,
      ⟨16, 1, flag a.requests[0]⟩, ⟨17, 1, flag a.requests[1]⟩, ⟨18, 1, flag a.requests[2]⟩,
      ⟨19, 1, flag a.requests[3]⟩, ⟨20, 1, flag a.requests[4]⟩, ⟨21, 1, flag a.requests[5]⟩,
      ⟨22, 1, flag a.requests[6]⟩, ⟨23, 1, flag a.requests[7]⟩],
    packWord [⟨0, 2, t.mode.code⟩, ⟨2, 1, t.output.code⟩, ⟨3, 2, pendingModeCode t.pendingMode⟩,
      ⟨5, 2, frozenCode t.frozenLevel⟩, ⟨8, 5, t.entries.length⟩, ⟨16, 6, t.queue.length⟩,
      ⟨24, 7, queueSum t.queue⟩],
    packWord [⟨0, 1, (head.map fun r => r.fate.code).getD 0⟩, ⟨8, 8, (head.map fun r => r.count).getD 0⟩,
      ⟨16, 16, s.records.nextSerial⟩],
    l.lineCount,
    BitVec.ofInt 32 l.v,
    l.usClock,
    BitVec.ofNat 32 l.sampleCounter,
    packWord [⟨0, 16, l.windowCount⟩, ⟨16, 16, l.syntheticRun⟩],
    BitVec.ofNat 32 l.illegalTotal,
    l.copyNumber,
    wordOf l.boundaryRef,
    BitVec.ofNat 32 l.spuriousCuts,
    BitVec.ofNat 32 l.params.cutoff,
    BitVec.ofNat 32 l.params.gateDelay,
    BitVec.ofNat 32 l.params.preMargin,
    BitVec.ofNat 32 l.params.postMargin,
    BitVec.ofNat 32 l.params.clearance,
    BitVec.ofNat 32 l.params.vMin,
    a.lastNip,
    a.grants,
    BitVec.ofNat 32 a.releases,
    wordOf (t.entries.head?.map fun e => e.zoneStart),
    wordOf (t.entries.head?.map fun e => e.zoneEnd),
    natWord (t.entries.head?.map fun e => e.copies),
    serialPair t.entries 0, serialPair t.entries 1, serialPair t.entries 2, serialPair t.entries 3,
    serialPair t.entries 4, serialPair t.entries 5, serialPair t.entries 6, serialPair t.entries 7,
    t.diverted,
    BitVec.ofNat 32 t.degraded,
    BitVec.ofNat 32 t.overflows ]

/-- The 64 words of the line status block: words 35 to 62 hold 0, word 63 the update count. -/
def lineBlock (s : State) : List Word := lineBlockHead s ++ List.replicate 28 0 ++ [s.host.lineUpdates]

/-- Write the line status block from the state (R183). -/
def writeLineBlock (s : State) : State := s.setMem (s.mem.writeWords lineBlockBase (lineBlock s))

/-! ### Configuration image (R50, R184) -/

/-- Words 1 to 27 of ORDER slot s: the configuration image (section 11.6). -/
def imageWords (d : Stand) : List Word :=
  let run := d.running.map fun r => r.reel
  let cur := (d.running.map fun r => r.current).join
  let g := d.staged
  let u := d.setup
  [ packWord [⟨0, 1, flag d.running.isSome⟩, ⟨1, 1, flag d.ready.isSome⟩, ⟨2, 1, flag cur.isSome⟩,
      ⟨8, 1, flag g.theta.isSome⟩, ⟨9, 1, flag g.tAct.isSome⟩, ⟨10, 1, flag g.dwell.isSome⟩,
      ⟨11, 1, flag g.knifeDelay.isSome⟩, ⟨12, 1, flag g.knifeWidth.isSome⟩],
    wordOf (run.map fun r => r.id),
    packWord [⟨0, 16, (run.map fun r => r.dFull).getD 0⟩, ⟨16, 16, (run.map fun r => r.core).getD 0⟩],
    packWord [⟨0, 16, (run.map fun r => r.caliper).getD 0⟩, ⟨16, 16, (run.map fun r => r.splice).getD 0⟩],
    packWord [⟨0, 16, cur.getD 0⟩, ⟨16, 16, (run.map fun r => r.runoutDiameter).getD 0⟩],
    wordOf (d.ready.map fun r => r.id),
    packWord [⟨0, 16, (d.ready.map fun r => r.dFull).getD 0⟩, ⟨16, 16, (d.ready.map fun r => r.core).getD 0⟩],
    packWord [⟨0, 16, (d.ready.map fun r => r.caliper).getD 0⟩, ⟨16, 16, (d.ready.map fun r => r.splice).getD 0⟩],
    BitVec.ofNat 32 u.pathLength, BitVec.ofNat 32 u.zoneLength, BitVec.ofNat 32 u.theta, BitVec.ofNat 32 u.tAct,
    BitVec.ofNat 32 u.dwell, BitVec.ofNat 32 u.knifeDelay, BitVec.ofNat 32 u.knifeWidth, BitVec.ofNat 32 u.tAcc,
    BitVec.ofNat 32 u.tSettle, BitVec.ofNat 32 u.window, BitVec.ofInt 32 u.offset, BitVec.ofNat 32 u.tMatch,
    packWord [⟨0, 1, u.rate.code⟩, ⟨1, 2, u.edgeSpindle.code⟩, ⟨3, 2, u.edgeTab.code⟩, ⟨5, 2, u.edgeHome.code⟩,
      ⟨7, 1, u.tabSelect.code⟩, ⟨8, 1, flag u.seeThrough⟩, ⟨9, 1, flag u.breakEnable[0]⟩,
      ⟨10, 1, flag u.breakEnable[1]⟩, ⟨11, 1, flag u.breakEnable[2]⟩, ⟨12, 1, flag u.breakEnable[3]⟩,
      ⟨13, 1, u.phaseMode.code⟩, ⟨16, 3, u.patRun⟩, ⟨19, 3, u.patAccel⟩, ⟨22, 3, u.patSplice⟩,
      ⟨25, 3, u.patIndex⟩],
    natWord g.theta, natWord g.tAct, natWord g.dwell, natWord g.knifeDelay, natWord g.knifeWidth,
    d.imageCount ]

/-- Write the configuration image of stand i `n` times: the image count rises by n, and the words stand as the
last write leaves them (R184). -/
def writeImage (i : StandNo) (n : Word) (s : State) : State :=
  let s1 := s.modStand i fun d => { d with imageCount := d.imageCount + n }
  s1.setMem (s1.mem.writeWords (slotBase (.order i) + 4) (imageWords (s1.stand i)))

/-- The slot state in a header: bits 0 to 7 (section 11.6). -/
def headerState (h : Word) : Nat := bitsOf h 0 8

/-- The request kind in a header: bits 8 to 15 (section 11.6). -/
def headerKind (h : Word) : Nat := bitsOf h 8 8

/-- The header of a slot. -/
def State.header (s : State) (slot : Slot) : Word := s.mem.readWord (slotBase slot)

/-- The header of ORDER slot i reads DONE (R184). -/
def State.orderDone (s : State) (i : StandNo) : Bool := headerState (s.header (.order i)) == 2

/-! ### The end of an event (log entry 4) -/

/-- Stand i's part of `commit`: `n` rewrite events of its status block write the block, and the image as often
while the ORDER slot reads DONE (R183, R184). -/
def commitStand (before : State) (i : StandNo) (s : State) : State :=
  let n := (s.stand i).updateCount - (before.stand i).updateCount
  if n = 0 then s
  else
    let s1 := writeStandBlock i s
    if s1.orderDone i then writeImage i n s1 else s1

/-- The line status block's part of `commit`. -/
def commitLine (before : State) (s : State) : State :=
  if s.host.lineUpdates = before.host.lineUpdates then s else writeLineBlock s

/-- The end of an event that began in `before`: every block whose update count the event has moved on is
written from the values the event leaves (R183; log entry 4). -/
def commit (before s : State) : State := forStands (commitStand before) (commitLine before s)

/-- A command names one event of the part. The event takes place when its condition holds and no reset lasts
(R14, R188); a command whose event does not take place changes nothing (log entry 1). -/
def takesPlace (condition : Bool) (event : State → State) (s : State) : Host.Outcome State Fault Refusal :=
  if !s.host.resetLow && condition then .next (commit s (event s)) else .next s

end Sys2Proof.Machine
end

