-- ==== Sys2Proof/Machine/Records.lean ====
section
/-!
DEFINITION. The record unit (10_splice_records.md): serials, opening, closing, placement and delivery.
-/
namespace Sys2Proof.Machine

/-! ### Serials (R164) -/

/-- The serial after a serial: after 65,535 comes 1 (R164). -/
def serialAfter (n : Nat) : Nat := if n < 65535 then n + 1 else 1

/-- The state with the next serial consumed. -/
def takeSerial (s : State) : State := s.modRecords fun r => { r with nextSerial := serialAfter r.nextSerial }

/-! ### The splice record table (R170, R171, section 11.6) -/

/-- The state field of entry e: bits 0 to 7 of its word 0. -/
def entryState (m : Memory) (e : Nat) : Nat := (m.read (recordBase e)).toNat

/-- The serial of entry e: bits 0 to 15 of its word 1. -/
def entrySerial (m : Memory) (e : Nat) : Nat := bitsOf (m.readWord (recordBase e + 4)) 0 16

/-- The numbers of the 32 entries. -/
def entryNumbers : List Nat := List.range 32

/-- The lowest-numbered FREE entry (R170, R171). -/
def lowestFree (m : Memory) : Option Nat := entryNumbers.find? fun e => entryState m e == 0

/-- The lowest-numbered FILLED entry with a serial (R173). -/
def filledWith (m : Memory) (serial : Nat) : Option Nat :=
  entryNumbers.find? fun e => entryState m e == 1 && entrySerial m e == serial

/-- The state a record is placed with (R170): FILLED, DELIVERED or LOST. -/
def placedState : Option Retirement → Nat
  | none => 1
  | some (.delivered _ _) => 2
  | some .lost => 3

/-- A delivery, and not a loss, has reached the record. -/
def isDelivered : Option Retirement → Bool
  | some (.delivered _ _) => true
  | _ => false

/-- The 16 words of a record entry (section 11.6). DESIGN CHOICE: a placement writes words 12 to 15, which the layout does not
name, and they hold 0 (log entry 13). -/
def recordWords (i : StandNo) (r : SpliceRecord) : List Word :=
  let span := (r.delivery.map fun d => d.span).join
  [ packWord [⟨0, 8, placedState r.delivery⟩, ⟨8, 3, i.val⟩, ⟨12, 2, outcomeCode r.outcome⟩,
      ⟨16, 4, causeCode r.cause⟩, ⟨20, 1, flag r.knifeLate⟩, ⟨21, 1, flag r.trackOverflow⟩,
      ⟨22, 2, kCode (r.nip.map fun n => n.k)⟩, ⟨24, 1, flag r.nip.isSome⟩, ⟨25, 1, flag r.lastDev.isSome⟩,
      ⟨26, 1, flag (isDelivered r.delivery)⟩, ⟨27, 1, flag span.isSome⟩],
    packWord [⟨0, 16, r.serial⟩],
    r.newId,
    r.expiredId,
    wordOf (r.nip.map fun n => n.lineCount),
    wordOf (r.nip.map fun n => n.copyNumber),
    packWord [⟨0, 16, r.diameter⟩, ⟨16, 16, signedBits 16 (r.lastDev.getD 0)⟩],
    natWord (r.nip.map fun n => n.butt),
    BitVec.ofInt 32 ((r.nip.map fun n => n.trim).getD 0),
    natWord (r.delivery.map fun d => d.copies),
    wordOf (span.map Prod.fst),
    wordOf (span.map Prod.snd),
    0, 0, 0, 0 ]

/-! ### Placement (R170) -/

/-- The pending record of stand i, when it is WAITING. -/
def State.waitingRecord (s : State) (i : StandNo) : Option SpliceRecord :=
  match (s.stand i).records.pending with
  | some q => if q.phase = .waiting then some q.record else none
  | none => none

/-- The notice of a placement (R170). -/
def placementNotice (r : SpliceRecord) : Notice := if r.outcome = some .aborted then .spliceAbort else .spliceDone

/-- Empty stand i's pending slot. -/
def clearPending (i : StandNo) (s : State) : State :=
  (s.modStand i fun d => { d with records := { d.records with pending := none } }).modRecords
    fun r => { r with order := r.order.erase i }

/-- Place stand i's record in entry e (R170). -/
def placeRecord (i : StandNo) (r : SpliceRecord) (e : Nat) (s : State) : State :=
  recordEvent i (raise (placementNotice r)
    (clearPending i (s.setMem (s.mem.writeWords (recordBase e) (recordWords i r)))))

/-- Take the WAITING records of the stands listed, in turn, until no FREE entry is found (R170). -/
def placeAll : List StandNo → State → State
  | [], s => s
  | i :: rest, s =>
    match s.waitingRecord i with
    | none => placeAll rest s
    | some r =>
      match lowestFree s.mem with
      | none => s
      | some e => placeAll rest (placeRecord i r e s)

/-- A placement pass (R170). `trigger` is the stand whose close or ABORTED record made the pass, if one did:
TABLE_FULL is raised when that record is left WAITING. -/
def placementPass (trigger : Option StandNo) (s : State) : State :=
  let s1 := placeAll s.records.order s
  match trigger with
  | some i => if (s1.waitingRecord i).isSome then raise .tableFull s1 else s1
  | none => s1

/-! ### Creating a record (R166, R167) -/

/-- The reel id of a reel record; 0 when it is absent, which the law of R72 rules out (log entry 16). -/
def idOf (r : Option Reel) : Word := (r.map fun x => x.id).getD 0

/-- Put a new record into stand i's empty pending slot, youngest of the pending records (R163, R164). -/
def fillPending (i : StandNo) (q : PendingRecord) (s : State) : State :=
  (s.modStand i fun d => { d with records := { d.records with pending := some q } }).modRecords
    fun r => { r with order := r.order ++ [i] }

/-- Count a record that is not kept (R166). -/
def dropRecord (i : StandNo) (s : State) : State :=
  s.modStand i fun d => { d with records := { d.records with dropped := satInc max32 d.records.dropped } }

/-- The record that a nip of stand i opens (R166), with the serial given. A running record, nip line count or k that is
absent, which no run reaches at a nip, gives 0 (log entry 16). -/
def nipRecord (s : State) (i : StandNo) (serial : Nat) : SpliceRecord :=
  let d := s.stand i
  { serial := serial
    outcome := none
    cause := none
    knifeLate := false
    trackOverflow := false
    newId := idOf d.ready
    expiredId := idOf (d.running.map fun r => r.reel)
    nip := some
      { lineCount := wordOf d.seq.attempt.nipCount
        copyNumber := s.line.copyNumber
        butt := d.buttLength.getD 0
        trim := d.speed.trim
        k := d.seq.attempt.k.getD 0 }
    diameter := d.spindle.estimate
    lastDev := d.speed.lastDev
    delivery := none }

/-- Opening at a nip (R166): the serial is consumed whether the record is kept or not. -/
def openRecord (i : StandNo) (s : State) : State :=
  let r := nipRecord s i s.records.nextSerial
  let s1 := takeSerial s
  match (s1.stand i).records.pending with
  | none => recordEvent i (fillPending i ⟨r, .open⟩ s1)
  | some _ => dropRecord i s1

/-- The ABORTED record of stand i (R167), with the serial given. -/
def abortedRecord (s : State) (i : StandNo) (cause : AbortCause) (serial : Nat) : SpliceRecord :=
  let d := s.stand i
  { serial := serial
    outcome := some .aborted
    cause := some cause
    knifeLate := false
    trackOverflow := false
    newId := idOf d.ready
    expiredId := idOf (d.running.map fun r => r.reel)
    nip := none
    diameter := d.spindle.estimate
    lastDev := d.speed.lastDev
    delivery := none }

/-- Creation of an ABORTED record (R167): WAITING with a placement pass at once, or dropped. -/
def createAborted (i : StandNo) (cause : AbortCause) (s : State) : State :=
  let r := abortedRecord s i cause s.records.nextSerial
  let s1 := takeSerial s
  match (s1.stand i).records.pending with
  | none => placementPass (some i) (recordEvent i (fillPending i ⟨r, .waiting⟩ s1))
  | some _ => recordEvent i (dropRecord i s1)

/-! ### Flags and closing (R168, R169) -/

/-- Change stand i's OPEN record; nothing happens where there is none. -/
def modOpen (i : StandNo) (f : SpliceRecord → SpliceRecord) (s : State) : State :=
  match (s.stand i).records.pending with
  | some q =>
    if q.phase = .open then
      s.modStand i fun d => { d with records := { d.records with pending := some { q with record := f q.record } } }
    else s
  | none => s

/-- TRACK_OVERFLOW for the record opened at the same nip (R168). -/
def flagOverflow (i : StandNo) (s : State) : State := modOpen i (fun r => { r with trackOverflow := true }) s

/-- KNIFE_LATE for the stand's open record (R168). -/
def flagKnifeLate (i : StandNo) (s : State) : State := modOpen i (fun r => { r with knifeLate := true }) s

/-- Close stand i's OPEN record with an outcome and a cause (R169). -/
def closeRecord (i : StandNo) (outcome : RecordOutcome) (cause : Option AbortCause) (s : State) : State :=
  match (s.stand i).records.pending with
  | some q =>
    if q.phase = .open then
      let closed : PendingRecord := ⟨{ q.record with outcome := some outcome, cause := cause }, .waiting⟩
      placementPass (some i) (recordEvent i
        (s.modStand i fun d => { d with records := { d.records with pending := some closed } }))
    else s
  | none => s

/-! ### Delivery and loss (R173 to R175) -/

/-- Word 0 of an entry as a retirement rewrites it (R173, R174): the state and the delivery's presence bits are the
retirement's, the other fields stand, and the bits that the layout does not list read 0 (section 11.6). That a loss
clears presence bits which the host itself has set is a DESIGN CHOICE (log entry 13). -/
def retiredWord (w : Word) (result : Retirement) : Word :=
  w &&& 0x03FF3700#32 ||| packWord [⟨0, 8, placedState (some result)⟩, ⟨26, 1, flag (isDelivered (some result))⟩,
    ⟨27, 1, flag result.span.isSome⟩]

/-- The delivery fields of an entry, words 9 to 11, which a loss leaves (R173, R174). -/
def writeDelivery (m : Memory) (e : Nat) : Retirement → Memory
  | .lost => m
  | .delivered copies span =>
    m.writeWords (recordBase e + 36) [BitVec.ofNat 32 copies, wordOf (span.map Prod.fst), wordOf (span.map Prod.snd)]

/-- Write a retirement into entry e of the table: the delivery fields first, word 0 last (R173, R174). -/
def entryRetired (m : Memory) (e : Nat) (result : Retirement) : Memory :=
  (writeDelivery m e result).writeWord (recordBase e) (retiredWord (m.readWord (recordBase e)) result)

/-- The record unit places a retirement by the first of the three cases of R173 and R174. -/
def applyRetirement (serial : Nat) (i : StandNo) (result : Retirement) (s : State) : State :=
  let unmatched (s : State) : State := recordEvent i (s.modStand i fun d =>
    { d with records := { d.records with
        report := some ⟨serial, result⟩, unmatchedCount := d.records.unmatchedCount + 1 } })
  let inTable (s : State) : State :=
    match filledWith s.mem serial with
    | some e => recordEvent i (s.setMem (entryRetired s.mem e result))
    | none => unmatched s
  match (s.stand i).records.pending with
  | some q =>
    if q.record.serial = serial then
      recordEvent i (s.modStand i fun d =>
        { d with records := { d.records with
            pending := some { q with record := { q.record with delivery := some result } } } })
    else inTable s
  | none => inTable s

end Sys2Proof.Machine
end

