-- ==== Sys2Proof/Machine/Arbiter.lean ====
section
/-!
DEFINITION. The clearance arbiter (08_splice_clearance.md).
-/
namespace Sys2Proof.Machine

/-- The distance test (R135): the last nip is invalid, or the line count is at or after it plus the clearance
distance. -/
def distanceMet (s : State) : Bool :=
  !s.arbiter.lastNipValid ||
    atOrAfter s.line.lineCount (s.arbiter.lastNip + BitVec.ofNat 32 s.line.params.clearance)

/-- Stand i is in the request set (R133). -/
def Arbiter.requested (a : Arbiter) (i : StandNo) : Bool := a.requests[i.val]

/-- The more urgent of a best requester so far and requester i: the smaller L_runout, and on equal values the
one that stood first (R137). -/
def moreUrgent (s : State) (best : Option StandNo) (i : StandNo) : Option StandNo :=
  if s.arbiter.requested i then
    match best with
    | none => some i
    | some j => if (s.stand i).urgency < (s.stand j).urgency then some i else some j
  else best

/-- The winner of an evaluation (R137): the requester with the smallest L_runout, the lowest number of equals. -/
def winner (s : State) : Option StandNo := standNumbers.foldl (moreUrgent s) none

/-- The effects of a grant, in order (R137). -/
def grant (i : StandNo) (s : State) : State :=
  enter i .armed (s.modArbiter fun a =>
    { a with requests := a.requests.set i.val false i.isLt, holder := some i, grants := a.grants + 1 })

/-- An evaluation (R137): at most one grant. -/
def evaluate (s : State) : State :=
  if s.arbiter.holder = none ∧ distanceMet s = true then
    match winner s with
    | some i => grant i s
    | none => s
  else s

/-- Stand i's request enters the set, and the arbiter evaluates at once (R134). -/
def enterRequest (i : StandNo) (s : State) : State :=
  evaluate (s.modArbiter fun a => { a with requests := a.requests.set i.val true i.isLt })

/-- Stand i's request leaves the set, without an evaluation (R134). -/
def withdraw (i : StandNo) (s : State) : State :=
  s.modArbiter fun a => { a with requests := a.requests.set i.val false i.isLt }

/-- Release without a nip, if stand i holds the clearance (R139). -/
def releaseWithoutNip (i : StandNo) (s : State) : State :=
  if s.arbiter.holder = some i then
    evaluate (s.modArbiter fun a => { a with holder := none, releases := satInc max32 a.releases })
  else s

/-- Release at the nip (R138): the last nip becomes the nip line count, valid. -/
def releaseAtNip (nip : Word) (s : State) : State :=
  evaluate (s.modArbiter fun a => { a with holder := none, lastNip := nip, lastNipValid := true })

/-- The band check of R136 at a change of the line count: aging going forward, moving back going backward. -/
def ageLastNip (forward : Bool) (s : State) : State :=
  s.modArbiter fun a =>
    if a.lastNipValid then
      if forward then
        if s.line.lineCount = a.lastNip + 1073741824 then { a with lastNipValid := false } else a
      else if s.line.lineCount = a.lastNip - 1073741825 then { a with lastNip := a.lastNip - 1 } else a
    else a

end Sys2Proof.Machine
end

