-- ==== Sys2Proof/Machine/Sequencer.lean ====
section
/-!
DEFINITION. The sequencer's shared operations (05_the_splice_sequence.md): the automatic start, the abort, the
entry to FAULTED, and the consequences of WEB_BREAK, SAFE and an encoder fault in each stand state.
-/
namespace Sys2Proof.Machine

/-- The automatic start test (R75). A stand with no running record has no L_splice and does not start, a case that the law
of R72 rules out in PREPARED (log entry 16). -/
def startTest (s : State) (i : StandNo) : Bool :=
  let d := s.stand i
  d.spindle.validity == .valid && decide (s.line.params.vMin ≤ s.line.vLine) && !s.line.encoderFault
    && !s.safeAsserted && d.io.jogDeadline.isNone
    && match d.lSplice with
       | some l => decide (l ≤ d.lLead s.line.vLine)
       | none => false

/-- An evaluation of the automatic start (R76): it is made in PREPARED alone. -/
def evaluateStart (i : StandNo) (s : State) : State :=
  if s.phase i = .prepared ∧ startTest s i = true then enter i .accelerating s else s

/-- Set the abort cause of stand i. -/
def setCause (i : StandNo) (cause : Option AbortCause) (s : State) : State :=
  s.modStand i fun d => { d with seq := { d.seq with cause := cause } }

/-- Paste timing cancels a pending fire and nip: the one-shot returns to IDLE (R88, R122). -/
def cancelPaste (i : StandNo) (s : State) : State :=
  s.modStand i fun d => { d with paste := { d.paste with oneShot := .idle, dwellEnd := none } }

/-- Paste timing stops: one-shot and knife return to IDLE and their deadlines become absent (R94, R130). -/
def stopPaste (i : StandNo) (s : State) : State :=
  s.modStand i fun d =>
    { d with
      paste := { d.paste with oneShot := .idle, dwellEnd := none, knife := .idle, knifeEnd := none }
      seq := { d.seq with attempt := { d.seq.attempt with knifeLate := none } } }

/-- The WINDDOWN target of stand i. -/
def setTarget (i : StandNo) (t : WinddownTarget) (s : State) : State :=
  s.modStand i fun d => { d with seq := { d.seq with target := some t } }

/-- The running record of stand i becomes absent. -/
def dropRunning (i : StandNo) (s : State) : State := s.modStand i fun d => { d with running := none }

/-- An abort before the nip (R88). The request is withdrawn before the release evaluates (log entry 22). -/
def abortAttempt (i : StandNo) (cause : AbortCause) (target : WinddownTarget) (s : State) : State :=
  let s1 := releaseWithoutNip i (withdraw i (setCause i (some cause) s))
  let s2 := if s.phase i = .pasting then cancelPaste i s1 else s1
  setTarget i target (enter i .winddown (createAborted i cause s2))

/-- An entry to FAULTED (R94): from PASTING the clearance is released and an ABORTED record created, from
CUTTING or INDEXING the open record is closed. -/
def enterFaulted (i : StandNo) (cause : AbortCause) (s : State) : State :=
  let s1 := stopPaste i (setCause i (some cause) s)
  let s2 := if s.phase i = .pasting then createAborted i cause (releaseWithoutNip i s1)
    else closeRecord i .faultAfterNip (some cause) s1
  raise .standFault (enter i .faulted s2)

/-- The end of a winddown (R89): the stand enters its target; at IDLE the running record becomes absent. Without a target,
which no run reaches in WINDDOWN, the stand enters HELD (log entry 16). -/
def endWinddown (i : StandNo) (s : State) : State :=
  match (s.stand i).seq.target with
  | some .idle => enter i .idle (dropRunning i s)
  | some .held | none => enter i .held s

/-- The consequence of a WEB_BREAK event of stand i (R93). -/
def webBreakConsequence (i : StandNo) (s : State) : State :=
  match s.phase i with
  | .idle | .faulted => s
  | .running | .prepared | .held => enter i .idle (dropRunning i s)
  | .accelerating | .matching | .armed => abortAttempt i .webBreak .idle s
  | .winddown => setTarget i .idle s
  | .pasting | .cutting | .indexing => enterFaulted i .webBreak s

/-- The consequence of the SAFE assertion for stand i (R92). -/
def safeConsequence (i : StandNo) (s : State) : State :=
  match s.phase i with
  | .accelerating | .matching | .armed | .pasting => abortAttempt i .safe .held s
  | .cutting | .indexing => enterFaulted i .safe s
  | .idle | .running | .prepared | .held | .winddown | .faulted => s

/-- The consequence of the encoder fault raised event for stand i (R91). -/
def lineFaultConsequence (i : StandNo) (s : State) : State :=
  match s.phase i with
  | .accelerating | .matching | .armed => abortAttempt i .lineFault .held s
  | _ => s

/-- MARK_LOST given to stand i's sequencer (R68, R69, R91): it ends an attempt in MATCHING or ARMED. -/
def markLost (i : StandNo) (s : State) : State :=
  if s.phase i = .matching ∨ s.phase i = .armed then abortAttempt i .markLost .held s else s

end Sys2Proof.Machine
end

