-- ==== Sys2Proof/Machine/SpeedMatch.lean ====
section
/-!
DEFINITION. The speed match (06_speed_match_and_drive_reference.md): steps at speed samples and the evaluation of
a revolution.
-/
namespace Sys2Proof.Machine

/-- The trimmed line speed, clamped to 0…4000 (R101 step 2). -/
def rampTarget (vLine : Nat) (trim : Int) : Nat :=
  (clampInt 0 4000 (roundDivInt ((vLine : Int) * (1000 + trim)) 1000)).toNat

/-- While SAFE is asserted every step yields 0 (R24, R111). -/
def underSafe (safe : Bool) (r : Nat) : Nat := if safe then 0 else r

/-- The ramp step of ACCELERATING (R101). -/
def Stand.rampStep (vLine : Nat) (safe : Bool) (d : Stand) : Stand :=
  let kr := d.speed.kr + 1
  let target := rampTarget vLine d.speed.trim
  let r := if d.setup.tAcc ≤ 10 * kr then target else min target (roundDiv (vLine * 10 * kr) d.setup.tAcc)
  Stand.setRef (underSafe safe r) { d with speed := { d.speed with kr := kr, target := target } }

/-- The target step of MATCHING, ARMED and PASTING (R102). -/
def Stand.targetStep (vLine : Nat) (safe : Bool) (d : Stand) : Stand :=
  let target := rampTarget vLine d.speed.trim
  Stand.setRef (underSafe safe target) { d with speed := { d.speed with target := target } }

/-- The winddown step (R110); a step that is absent, which no run reaches in WINDDOWN, is taken as 1 (log entry 16). -/
def Stand.winddownStep (safe : Bool) (d : Stand) : Stand :=
  Stand.setRef (underSafe safe (d.speed.ref - d.speed.wdStep.getD 1)) d

/-- The deviation of a revolution (R103): D_full of the ready reel against C_tab. -/
def deviation (dFull cTab : Nat) : Int :=
  clampInt (-999) 999 (roundDivInt (((circumference dFull : Int) - cTab) * 1000) cTab)

/-- The trim's correction against the error e (R106). -/
def correctTrim (trim e : Int) : Int := clampInt (-100) 100 (trim - Int.tdiv e 2)

/-- D_full of the ready record; 0 when it is absent, which the law of R72 rules out (log entry 16). -/
def Stand.readyFull (d : Stand) : Nat := (d.ready.map fun r => r.dFull).getD 0

/-- The match count after a revolution (R104, R105). -/
def matchCountAfter (inWindow : Bool) (count : Nat) : Nat := if inWindow then min (count + 1) 3 else 0

/-- The evaluation of a revolution with C_tab at a tab mark taken in state `taken` (R103 to R106): in MATCHING the
clearance request is entered when the count rises to 3 and withdrawn when it falls from 3. -/
def evaluateRevolution (i : StandNo) (taken : Phase) (cTab : Nat) (s : State) : State :=
  if cTab = 0 then s
  else
    let d := s.stand i
    let dev := deviation d.readyFull cTab
    let e := dev - d.setup.offset
    let inWindow := decide (e.natAbs ≤ d.setup.window)
    let before := d.speed.matchCount
    let after := matchCountAfter inWindow before
    let s1 := s.modStand i fun d =>
      { d with speed := { d.speed with lastDev := some dev, matchCount := after, trim := correctTrim d.speed.trim e } }
    if taken = .matching ∧ before ≠ 3 ∧ after = 3 then enterRequest i s1
    else if taken = .matching ∧ before = 3 ∧ after = 0 then withdraw i s1
    else s1

/-- The freeze at the nip (R107). -/
def Stand.freeze (d : Stand) : Stand := { d with speed := { d.speed with frozen := true } }

/-- The speed match's part of a knife start (R107). -/
def Stand.zeroAtKnife (d : Stand) : Stand := Stand.setRef 0 { d with speed := { d.speed with frozen := false } }

/-- What one speed sample does to stand i (R81, R82, R89, R101, R102, R110): the sequencer's line-speed check,
then the speed match's step and what follows from it. -/
def sampleStep (i : StandNo) (s : State) : State :=
  let slow := decide (s.line.vLine < s.line.params.vMin)
  let vLine := s.line.vLine
  let safe := s.safeAsserted
  match s.phase i with
  | .accelerating =>
    if slow then abortAttempt i .lineSlow .held s
    else
      let s1 := s.modStand i fun d => d.rampStep vLine safe
      let d := s1.stand i
      if d.setup.tAcc + d.setup.tSettle ≤ 10 * d.speed.kr then
        let s2 := enter i .matching s1
        if reached s.line.usClock (s2.stand i).tab.deadline then markLost i s2 else s2
      else s1
  | .matching | .armed =>
    if slow then abortAttempt i .lineSlow .held s else s.modStand i fun d => d.targetStep vLine safe
  | .pasting => s.modStand i fun d => d.targetStep vLine safe
  | .winddown =>
    let s1 := s.modStand i fun d => d.winddownStep safe
    if (s1.stand i).speed.ref = 0 then endWinddown i s1 else s1
  | .idle | .running | .prepared | .held | .cutting | .indexing | .faulted => s

/-- A speed sample at stand i, with the rewrite event of every 10th sample taken in ACCELERATING or WINDDOWN
(R183). -/
def sampleStand (i : StandNo) (s : State) : State :=
  let shown := s.line.sampleCounter % 10 == 0 && (s.phase i == .accelerating || s.phase i == .winddown)
  let s1 := sampleStep i s
  if shown then touchStand i s1 else s1

end Sys2Proof.Machine
end

