-- ==== Sys2Proof/Machine/Tracker.lean ====
section
/-!
DEFINITION. The splice tracker and gate scheduler (09_splice_tracking_and_the_waste_gate.md).
-/
namespace Sys2Proof.Machine

/-! ### Retirement -/

/-- Retire the entries listed with result LOST, in turn (R143, R145, R157, R174). -/
def retireLost (es : List TrackEntry) (s : State) : State :=
  es.foldl (fun s e => applyRetirement e.serial e.stand .lost s) s

/-- Retire the entries listed as DELIVERED, in turn (R147). -/
def retireDelivered (es : List TrackEntry) (s : State) : State :=
  es.foldl (fun s e => raise .delivered (applyRetirement e.serial e.stand (.delivered e.copies e.span) s)) s

/-- Replace the tracking list. -/
def setEntries (es : List TrackEntry) (s : State) : State := s.modTracker fun t => { t with entries := es }

/-! ### Creation of an entry at a nip (R142 to R144) -/

/-- The entry of a splice of stand i with nip line count `nip` (R142). -/
def newEntry (s : State) (i : StandNo) (serial : Nat) (nip : Word) : TrackEntry :=
  let u := (s.stand i).setup
  let p := s.line.params
  let path := nip + BitVec.ofNat 32 u.pathLength
  { serial := serial
    stand := i
    zoneStart := path - BitVec.ofNat 32 p.preMargin
    zoneEnd := path + BitVec.ofNat 32 u.zoneLength + BitVec.ofNat 32 p.postMargin
    copies := 0
    span := none }

/-- Insertion in order of zone start, after equals (R143). -/
def insertEntry (e : TrackEntry) : List TrackEntry → List TrackEntry
  | [] => [e]
  | x :: rest => if isAfter x.zoneStart e.zoneStart then e :: x :: rest else x :: insertEntry e rest

/-- The removal of an older entry with the same serial (R143). -/
def dropDuplicate (serial : Nat) (s : State) : State :=
  let es := s.tracker.entries
  retireLost (es.filter fun e => e.serial = serial) (setEntries (es.filter fun e => e.serial ≠ serial) s)

/-- The tracker's part of a nip event (R142 to R144). -/
def trackSplice (i : StandNo) (serial : Nat) (nip : Word) (s : State) : State :=
  let s1 := dropDuplicate serial s
  if s1.tracker.entries.length < 16 then setEntries (insertEntry (newEntry s i serial nip) s1.tracker.entries) s1
  else
    (raise .trackOverflow (flagOverflow i s1)).modTracker fun t => { t with overflows := satInc max32 t.overflows }

/-- An entry is aged (R145). -/
def TrackEntry.aged (lineCount : Word) (e : TrackEntry) : Bool := atOrAfter lineCount (e.zoneEnd + 1073741824)

/-- The aging check at a change of the line count (R145). -/
def ageEntries (s : State) : State :=
  let es := s.tracker.entries
  let c := s.line.lineCount
  retireLost (es.filter fun e => e.aged c) (setEntries (es.filter fun e => !e.aged c) s)

/-! ### Fate and retirement at a boundary (R146, R147) -/

/-- The entry overlaps the copy from `cb` up to `cb` + cutoff (R146). -/
def TrackEntry.overlaps (cb cutoff : Word) (e : TrackEntry) : Bool :=
  !atOrAfter e.zoneStart (cb + cutoff) && isAfter e.zoneEnd cb

/-- An overlapped entry's update (R146). -/
def TrackEntry.overlapped (n : Word) (e : TrackEntry) : TrackEntry :=
  { e with
    copies := satInc max16 e.copies
    span := match e.span with
      | none => some (n, n)
      | some (first, _) => some (first, n) }

/-- The zone has ended at or before the boundary (R147). -/
def TrackEntry.finished (cb : Word) (e : TrackEntry) : Bool := atOrAfter cb e.zoneEnd

/-! ### The run queue (R148 to R151) -/

/-- Append a fate to a queue whose tail has the other fate, or is empty: a new run (R149). -/
def newRun (f : Fate) (q : List Run) : List Run := q ++ [⟨f, 1⟩]

/-- A degraded append to a full queue with tail `t` and runs `front` before it (R150). -/
def degradeAppend (f : Fate) (front : List Run) (t : Run) : List Run :=
  match f with
  | .pass => front ++ [{ t with count := t.count + 1 }]
  | .divert =>
    match front.getLast? with
    | some p => front.dropLast ++ [⟨.divert, p.count + t.count + 1⟩]
    | none => [⟨.divert, t.count + 1⟩]

/-- The append of R149, degraded by R150 where it needs a 33rd run: the queue after it, and whether it was
degraded. -/
def appendFate (f : Fate) (q : List Run) : List Run × Bool :=
  match q.getLast? with
  | none => (newRun f q, false)
  | some t =>
    if t.fate = f ∧ t.count < 128 then (q.dropLast ++ [{ t with count := t.count + 1 }], false)
    else if q.length < 32 then (newRun f q, false)
    else (degradeAppend f q.dropLast t, true)

/-- The pop of R151: the queue after it, and the popped fate if the sum exceeded G. -/
def popFate (g : Nat) (q : List Run) : List Run × Option Fate :=
  match q with
  | [] => ([], none)
  | h :: rest =>
    if g < queueSum q then
      (if h.count ≤ 1 then rest else { h with count := h.count - 1 } :: rest, some h.fate)
    else (q, none)

/-! ### The gate output (R152 to R154) -/

/-- The gate output by the first row of R152 that holds. A frozen level that is absent in FROZEN, which no run reaches, is
taken as DIVERT (log entry 16). -/
def gateLevel (t : Tracker) (popped : Option Fate) : Fate :=
  match t.lastStatus with
  | .fault => .divert
  | .normal | .synthetic =>
    match t.mode with
    | .frozen => t.frozenLevel.getD .divert
    | .forcePass => .pass
    | .forceDivert => .divert
    | .normal => popped.getD .divert

def PendingMode.toMode : PendingMode → GateMode
  | .normal => .normal
  | .forceDivert => .forceDivert
  | .forcePass => .forcePass

/-- A present pending mode takes effect (R154). -/
def Tracker.takePending (t : Tracker) : Tracker :=
  match t.pendingMode with
  | none => t
  | some m => { t with mode := m.toMode, pendingMode := none, frozenLevel := none }

/-- Step 4 of a boundary: pending mode, last cut status, gate output and diverted-copy total (R152 to R154). -/
def Tracker.setGate (status : CutStatus) (popped : Option Fate) (t : Tracker) : Tracker :=
  let t1 := { t.takePending with lastStatus := status }
  let out := gateLevel t1 popped
  { t1 with output := out, diverted := if out = .divert then t1.diverted + 1 else t1.diverted }

/-- The queue is emptied and the gate output set for the emptied queue (R152, R157, R158). -/
def Tracker.emptyQueue (t : Tracker) : Tracker :=
  let t1 := { t with queue := [] }
  { t1 with output := gateLevel t1 none }

/-- The queue step of a boundary (step 3): append and pop (R149 to R151). -/
def queueStep (f : Fate) (s : State) : State × Option Fate :=
  let (q1, degraded) := appendFate f s.tracker.queue
  let (q2, popped) := popFate s.line.params.gateDelay q1
  let s1 := s.modTracker fun t =>
    { t with queue := q2, degraded := if degraded then satInc max32 t.degraded else t.degraded }
  (if degraded then raise .gateDegraded s1 else s1, popped)

/-- The tracker's four steps at a copy boundary `cb` with copy number n (R146, R147, R149 to R154). The cutoff
and the cut status are those of the line reference at the boundary (R8). -/
def trackBoundary (cb n : Word) (s : State) : State :=
  let cutoff := BitVec.ofNat 32 s.line.params.cutoff
  let es := s.tracker.entries
  let fate : Fate := if es.any fun e => e.overlaps cb cutoff then .divert else .pass
  let es1 := es.map fun e => if e.overlaps cb cutoff then e.overlapped n else e
  let s1 := retireDelivered (es1.filter fun e => e.finished cb) (setEntries (es1.filter fun e => !e.finished cb) s)
  let (s2, popped) := queueStep fate s1
  s2.modTracker fun t => t.setGate s.line.cutStatus popped

end Sys2Proof.Machine
end

