-- ==== Sys2Proof/Machine/Paste.lean ====
section
/-!
DEFINITION. Paste timing (07_paste_and_knife_timing.md): the staged set, the fire point, the nip and the knife.
-/
namespace Sys2Proof.Machine

/-! ### The staged timing set -/

/-- The staged set replaces the active values it holds, and is emptied (R117). -/
def Stand.takeStaged (d : Stand) : Stand :=
  { d with
    setup := { d.setup with
      theta := d.staged.theta.getD d.setup.theta
      tAct := d.staged.tAct.getD d.setup.tAct
      dwell := d.staged.dwell.getD d.setup.dwell
      knifeDelay := d.staged.knifeDelay.getD d.setup.knifeDelay
      knifeWidth := d.staged.knifeWidth.getD d.setup.knifeWidth }
    staged := .empty }

/-! ### The knife (R126 to R130) -/

/-- Knife start, by distance or by deadline (R128). -/
def startKnife (i : StandNo) (s : State) : State :=
  s.modStand i fun d =>
    Stand.zeroAtKnife
      { d with
        paste := { d.paste with
          knife := .active
          knifeEnd := some (s.line.usClock + BitVec.ofNat 32 d.setup.knifeWidth) }
        seq := { d.seq with attempt := { d.seq.attempt with knifeLate := none } } }

/-- The line count is at or after the nip line count + knife delay (R126). -/
def knifeDistance (s : State) (i : StandNo) : Bool :=
  let d := s.stand i
  match d.seq.attempt.nipCount with
  | some n => atOrAfter s.line.lineCount (n + BitVec.ofNat 32 d.setup.knifeDelay)
  | none => false

/-- The check of the knife distance: while the stand is CUTTING and the knife is WAIT (R126). -/
def checkKnife (i : StandNo) (s : State) : State :=
  if s.phase i = .cutting ∧ (s.stand i).paste.knife = .wait ∧ knifeDistance s i = true then startKnife i s else s

/-! ### The nip (R124) -/

/-- Step 1 of the nip event: the nip line count is latched. -/
def latchNip (i : StandNo) (s : State) : State :=
  s.modStand i fun d =>
    { d with seq := { d.seq with attempt := { d.seq.attempt with nipCount := some s.line.lineCount } } }

/-- Step 6 of the nip event: the knife waits, with its late deadline 10,000,000 µs after the nip time. -/
def waitKnife (i : StandNo) (s : State) : State :=
  s.modStand i fun d =>
    { d with
      paste := { d.paste with knife := .wait }
      seq := { d.seq with
        attempt := { d.seq.attempt with knifeLate := d.seq.attempt.nipTime.map fun t => t + 10000000 } } }

/-- The nip event of stand i (R124): latch, record, tracking, clearance, freeze, knife and state, in that order,
and the knife distance at once on entry to CUTTING (R126). -/
def nipEvent (i : StandNo) (s : State) : State :=
  let serial := s.records.nextSerial
  let nip := s.line.lineCount
  let opened := openRecord i (latchNip i s)
  let released := releaseAtNip nip (trackSplice i serial nip opened)
  checkKnife i (enter i .cutting (waitKnife i (released.modStand i Stand.freeze)))

/-- The nip is due: PASTING, the one-shot ACTIVE, the nip time reached (R123). -/
def nipDue (s : State) (i : StandNo) : Bool :=
  let d := s.stand i
  d.seq.phase == .pasting && d.paste.oneShot == .active && reached s.line.usClock d.seq.attempt.nipTime

/-! ### The fire point (R118 to R121) -/

/-- A fire point: k, and the fire and nip times relative to the arming mark. -/
structure FirePoint where
  k    : Fin 2
  fire : Nat
  nip  : Nat
deriving DecidableEq, Repr

/-- The fire point of R119 from θ, T_act and the mark's period P; `none` is TIMING_RANGE. -/
def firePoint (theta tAct p : Nat) : Option FirePoint :=
  let tNip := theta * p / 4096
  if tAct ≤ tNip then some ⟨0, tNip - tAct, tNip⟩
  else if tAct ≤ tNip + p then some ⟨1, tNip + p - tAct, p + tNip⟩
  else none

/-- The fire time is due: PASTING, the one-shot in DELAY, the fire time reached (R121). -/
def fireDue (s : State) (i : StandNo) : Bool :=
  let d := s.stand i
  d.seq.phase == .pasting && d.paste.oneShot == .delay && reached s.line.usClock d.seq.attempt.fireTime

/-- The one-shot enters ACTIVE (R121). -/
def fireEvent (i : StandNo) (s : State) : State :=
  s.modStand i fun d => { d with paste := { d.paste with oneShot := .active } }

/-- The fire point is committed, with the stand's entry to PASTING (R120). -/
def commitFire (i : StandNo) (m : Word) (f : FirePoint) (s : State) : State :=
  enter i .pasting (s.modStand i fun d =>
    let nip := m + BitVec.ofNat 32 f.nip
    { d with
      seq := { d.seq with attempt := { d.seq.attempt with
        fireTime := some (m + BitVec.ofNat 32 f.fire), nipTime := some nip, k := some f.k } }
      paste := { d.paste with oneShot := .delay, dwellEnd := some (nip + BitVec.ofNat 32 d.setup.dwell) } })

/-- A fire time at or before the arming mark event takes the one-shot on at once, and a nip time passed with it
makes the nip within the same event (R120). -/
def passThrough (i : StandNo) (s : State) : State :=
  let s1 := if fireDue s i then fireEvent i s else s
  if nipDue s1 i then nipEvent i s1 else s1

/-- The arming computation at a mark of ARMED with period P and time m (R119, R120). -/
def armingMark (i : StandNo) (p : Nat) (m : Word) (s : State) : State :=
  let u := (s.stand i).setup
  match firePoint u.theta u.tAct p with
  | some f => passThrough i (commitFire i m f s)
  | none => if s.phase i = .armed then abortAttempt i .timingRange .held s else s

/-- Paste timing's work at a tab mark handed on in state `taken` (R117, R119). -/
def pasteMark (i : StandNo) (taken : Phase) (p : Nat) (m : Word) (s : State) : State :=
  let s1 := s.modStand i Stand.takeStaged
  if taken = .armed then armingMark i p m s1 else s1

end Sys2Proof.Machine
end

