-- ==== Sys2Proof/Machine/Marks.lean ====
section
/-!
DEFINITION. Reel measurement (04_reel_measurement.md): spindle marks, the stall, tab marks and the take-up.
-/
namespace Sys2Proof.Machine

/-! ### The spindle side -/

/-- The measuring states of the spindle side (section 4.1). -/
def Phase.isMeasuring : Phase → Bool
  | .running | .prepared | .held | .accelerating | .matching | .armed | .pasting | .winddown => true
  | .idle | .cutting | .indexing | .faulted => false

/-- The state with stand i's spindle side changed by f. -/
def modSpindle (i : StandNo) (f : SpindleSide → SpindleSide) (s : State) : State :=
  s.modStand i fun d => { d with spindle := f d.spindle }

/-- The expected first revolution E from the estimate (R54). -/
def SpindleSide.expected (x : SpindleSide) : Nat := circumference x.estimate

/-- Append to the history, the oldest of four removed first (R58 step 1). -/
def pushHistory (v : Nat) (h : List Nat) : List Nat := (if h.length < 4 then h else h.tail) ++ [v]

/-- The diameter estimate from the stored revolutions (R58 step 5). -/
def estimateOf (h : List Nat) : Nat := min (roundDiv (h.sum * 10000) (h.length * 31416)) 13000

/-- Storing a value: steps 1 to 5 of R58. -/
def SpindleSide.store (v : Nat) (x : SpindleSide) : SpindleSide :=
  let h := pushHistory v x.history
  { x with history := h, cp := some v, rejects := 0, validity := .valid, estimate := estimateOf h }

/-- The runout check (R59). -/
def runoutCheck (i : StandNo) (s : State) : State :=
  let d := s.stand i
  match d.running with
  | none => s
  | some r =>
    if d.spindle.validity = .valid ∧ d.spindle.estimate ≤ r.reel.runoutDiameter ∧ d.spindle.runoutFlag = false then
      raise .runout (modSpindle i (fun x => { x with runoutFlag := true }) s)
    else s

/-- A value is stored, and the mark is handed to the sequencer as an accepted spindle mark (R58): the runout check,
a rewrite event, and the evaluation of the automatic start. -/
def storeRevolution (i : StandNo) (v : Nat) (s : State) : State :=
  evaluateStart i (touchStand i (runoutCheck i (modSpindle i (fun x => x.store v) s)))

/-- A rejection (R54, R55), and the loss of the spindle at the fourth in a row (R56). -/
def rejectRevolution (i : StandNo) (s : State) : State :=
  let s1 := modSpindle i (fun x =>
    { x with rejected := satInc max32 x.rejected, rejects := satInc max16 x.rejects }) s
  if (s1.stand i).spindle.rejects = 4 then
    raise .diameterLost (modSpindle i (fun x => { x with validity := .lost }) s1)
  else s1

/-- The judgement of a C that has been formed (R54 to R56). A Cp that is absent beside a history, which no run reaches, is
taken as 0 (log entry 16). -/
def judgeRevolution (i : StandNo) (c : Nat) (s : State) : State :=
  let x := (s.stand i).spindle
  match x.validity with
  | .lost => storeRevolution i c (modSpindle i (fun x => { x with history := [] }) s)
  | .none => storeRevolution i c s
  | .valid =>
    if x.history = [] then
      if 4 * x.expected ≤ 5 * c ∧ 5 * c ≤ 6 * x.expected then storeRevolution i c s else rejectRevolution i s
    else
      match ratioTest c (x.cp.getD 0) with
      | .accepted => storeRevolution i c s
      | .corrected =>
        storeRevolution i (roundDiv c 2)
          (modSpindle i (fun x => { x with corrected := satInc max32 x.corrected }) s)
      | .rejected => rejectRevolution i s

/-- A spindle mark handed to reel measurement at the present line count (R53); it is discarded outside the measuring
states. -/
def takeSpindleMark (i : StandNo) (s : State) : State :=
  if (s.phase i).isMeasuring then
    let c := s.line.lineCount
    let s1 := modSpindle i (fun x => { x with ref := some c }) s
    match (s.stand i).spindle.ref with
    | none => s1
    | some r => if atOrAfter c (r + 1) then judgeRevolution i (c - r).toNat s1 else s1
  else s

/-- The stall limit (R57): 3 × Cp, or 3 × E without Cp. -/
def SpindleSide.stallLimit (x : SpindleSide) : Nat := 3 * x.cp.getD x.expected

/-- The spindle is stalled at a line count (R57). -/
def SpindleSide.stalled (lineCount : Word) (x : SpindleSide) : Bool :=
  x.validity == .valid &&
    match x.ref with
    | some r => atOrAfter lineCount (r + BitVec.ofNat 32 (x.stallLimit + 1))
    | none => false

/-- The stall check at a change of the line count (R57). -/
def stallCheck (i : StandNo) (s : State) : State :=
  if (s.phase i).isMeasuring ∧ (s.stand i).spindle.stalled s.line.lineCount = true then
    raise .diameterLost (modSpindle i (fun x => { x with validity := .lost, ref := none }) s)
  else s

/-- The running reel handed to reel measurement by DECLARE RUNNING (R38). -/
def SpindleSide.declared (current : Option Nat) (x : SpindleSide) : SpindleSide :=
  { x with
    history := [], cp := none, ref := none, rejects := 0, runoutFlag := false
    estimate := current.getD 0
    validity := if current.isSome then .valid else .none }

/-- The take-up of the new running reel at index home (R60). -/
def SpindleSide.takeUp (dFull : Nat) (x : SpindleSide) : SpindleSide :=
  { x with history := [], cp := none, ref := none, rejects := 0, estimate := dFull, validity := .valid, runoutFlag := false }

/-- The spindle side after STAND RESET: the two totals are kept (R71). -/
def SpindleSide.standReset (x : SpindleSide) : SpindleSide :=
  { SpindleSide.atReset with corrected := x.corrected, rejected := x.rejected }

/-! ### The tab side -/

/-- The tab side after STAND RESET: the two totals are kept (R71). -/
def TabSide.standReset (t : TabSide) : TabSide :=
  { TabSide.atReset with corrected := t.corrected, rejected := t.rejected }

/-- P and C_tab from the last mark to a mark at time m and line count c (R65): C_tab is 0 when the web has run back. -/
def TabSide.form (last : TabStamp) (m c : Word) (t : TabSide) : TabSide :=
  { t with
    p := some (m - last.time).toNat
    cTab := some (if atOrAfter c last.count then (c - last.count).toNat else 0) }

/-- The capture of a mark in ACCELERATING, without tests (R65). -/
def TabSide.capture (m c : Word) (t : TabSide) : TabSide :=
  match t.last with
  | none => { t with last := some ⟨m, c⟩ }
  | some l =>
    let t1 := t.form l m c
    { t1 with pp := t1.p, last := some ⟨m, c⟩ }

/-- The judgement of a period P (R66). -/
def judgePeriod (p : Nat) (pp : Option Nat) : Judgement :=
  if 4000000 < p then .rejected
  else
    match pp with
    | none => .accepted
    | some r => ratioTest p r

/-- The tab side after a judged mark (R66). -/
def TabSide.judged (j : Judgement) (t : TabSide) : TabSide :=
  match j with
  | .accepted => { t with pp := t.p, rejects := 0 }
  | .corrected =>
    let half := roundDiv (t.p.getD 0) 2
    { t with
      p := some half, cTab := some (roundDiv (t.cTab.getD 0) 2), pp := some half, rejects := 0
      corrected := satInc max32 t.corrected }
  | .rejected => { t with rejected := satInc max32 t.rejected, rejects := satInc max16 t.rejects }

/-- A mark taken with tests (R66): the tab side after it, and its judgement; `none` for a mark with no last mark. -/
def TabSide.measure (m c : Word) (t : TabSide) : TabSide × Option Judgement :=
  match t.last with
  | none => ({ t with last := some ⟨m, c⟩ }, none)
  | some l =>
    let t1 := { t.form l m c with last := some ⟨m, c⟩ }
    let j := judgePeriod (t1.p.getD 0) t.pp
    (t1.judged j, some j)

/-- The state with stand i's tab side set. -/
def setTab (i : StandNo) (t : TabSide) (s : State) : State := s.modStand i fun d => { d with tab := t }

/-- A tab mark taken in MATCHING or ARMED (R66 to R69): judged, the deadline moved on, then handed to the speed match
and to paste timing, or a mark loss at the second rejection in a row. -/
def governingMark (i : StandNo) (taken : Phase) (s : State) : State :=
  let m := s.line.usClock
  let (t1, j) := (s.stand i).tab.measure m s.line.lineCount
  let t2 := { t1 with deadline := t1.deadlineOf }
  let s1 := touchStand i (setTab i t2 s)
  match j with
  | none => s1
  | some .rejected => if t2.rejects = 2 then markLost i s1 else s1
  | some .accepted | some .corrected =>
    pasteMark i taken (t2.p.getD 0) m (evaluateRevolution i taken (t2.cTab.getD 0) s1)

/-- A tab mark handed to reel measurement at the present µs clock and line count (R64 to R69). -/
def takeTabMark (i : StandNo) (s : State) : State :=
  let m := s.line.usClock
  let c := s.line.lineCount
  match s.phase i with
  | .accelerating => setTab i ((s.stand i).tab.capture m c) s
  | .matching => governingMark i .matching s
  | .armed => governingMark i .armed s
  | .pasting | .cutting | .indexing => setTab i ((s.stand i).tab.measure m c).1 s
  | .idle | .running | .prepared | .held | .winddown | .faulted => s

/-! ### The index (R86) -/

/-- The ready record becomes the running record, without a current diameter (R34, R86 step 1), and reel measurement
takes it up (R60). -/
def Stand.takeUpReel (d : Stand) : Stand :=
  { d with
    running := d.ready.map fun r => ⟨r, none⟩
    ready := none
    spindle := d.spindle.takeUp d.readyFull }

/-- An INDEX HOME mark handed to the sequencer (R86): it completes an index in INDEXING and is ignored elsewhere. -/
def takeHomeMark (i : StandNo) (s : State) : State :=
  if s.phase i = .indexing then
    enter i .running (closeRecord i .complete none (s.modStand i Stand.takeUpReel))
  else s

end Sys2Proof.Machine
end

