-- ==== Sys2Proof/Machine/Operands.lean ====
section
/-!
DEFINITION. Request bodies (section 11.6): reading a slot's words, presence masks, codes, and the judgement of the
fields of each request (R11, R35, R43 to R45, R115).
-/
namespace Sys2Proof.Machine

/-- Word n of a slot; word 0 is its header (section 11.6). -/
def State.slotWord (s : State) (slot : Slot) (n : Nat) : Word := s.mem.readWord (slotBase slot + 4 * n)

/-- Field n of a request with a presence mask in word 1: its value word when bit n is set (section 11.6). -/
def State.masked (s : State) (slot : Slot) (n : Nat) : Option Word :=
  if (s.slotWord slot 1).getLsbD n then some (s.slotWord slot (2 + n)) else none

/-- A masked field read as an unsigned number. -/
def State.maskedNat (s : State) (slot : Slot) (n : Nat) : Option Nat := (s.masked slot n).map BitVec.toNat

/-! ### Results (R182) -/

/-- The result codes of R182. -/
inductive Result where
  | accepted
  | acceptedClamped
  | refusedBusy
  | refusedRange
  | refusedKind
  | refusedEdgeOrder
  | refusedNoReel
  | refusedReelPresent
  | refusedLine
deriving DecidableEq, Repr

/-- The value of a result code (R182). -/
def Result.code : Result → Nat
  | .accepted => 1
  | .acceptedClamped => 2
  | .refusedBusy => 3
  | .refusedRange => 4
  | .refusedKind => 5
  | .refusedEdgeOrder => 6
  | .refusedNoReel => 7
  | .refusedReelPresent => 8
  | .refusedLine => 9

/-- ACCEPTED, or ACCEPTED_CLAMPED where a field was clamped. -/
def acceptedWith (clamped : Bool) : Result := if clamped then .acceptedClamped else .accepted

/-! ### Fields of refused and clamped class -/

/-- A number lies in a range (both ends included). -/
def inRange (lo hi n : Nat) : Bool := decide (lo ≤ n) && decide (n ≤ hi)

/-- A present field lies in its range; an absent field refuses nothing (R11, R43). -/
def presentInRange (lo hi : Nat) : Option Nat → Bool
  | none => true
  | some n => inRange lo hi n

/-- A present field of clamped class, clamped, in place of a stored value; an absent field keeps it (R11, R45). -/
def clampedOr (lo hi stored : Nat) : Option Nat → Nat
  | none => stored
  | some n => clampNat lo hi n

/-- A field of clamped class as REVISE TIMING stages it (R115, R116): present and clamped, or what was staged. -/
def clampedOver (lo hi : Nat) (staged : Option Nat) : Option Nat → Option Nat
  | none => staged
  | some n => some (clampNat lo hi n)

/-! ### Line setup (R11) -/

/-- The six fields of LINE SETUP, each present or absent. -/
structure LineRequest where
  cutoff     : Option Nat
  gateDelay  : Option Nat
  preMargin  : Option Nat
  postMargin : Option Nat
  clearance  : Option Nat
  vMin       : Option Nat
deriving DecidableEq, Repr

/-- The body of LINE SETUP (section 11.6). -/
def State.lineRequest (s : State) : LineRequest :=
  let f := s.maskedNat .line
  ⟨f 0, f 1, f 2, f 3, f 4, f 5⟩

/-- Step 1 of R11: a present cutoff or G outside its range refuses the request. -/
def LineRequest.inRange (r : LineRequest) : Bool := presentInRange 1000 20000 r.cutoff && presentInRange 1 64 r.gateDelay

/-- A present field of clamped class lies outside its range (step 2 of R11). -/
def LineRequest.clamps (r : LineRequest) : Bool :=
  !(presentInRange 0 50000 r.preMargin && presentInRange 0 50000 r.postMargin && presentInRange 0 2000000 r.clearance
    && presentInRange 10 1000 r.vMin)

/-- The merge of R11. -/
def LineRequest.merge (r : LineRequest) (p : LineParams) : LineParams where
  cutoff     := r.cutoff.getD p.cutoff
  gateDelay  := r.gateDelay.getD p.gateDelay
  preMargin  := clampedOr 0 50000 p.preMargin r.preMargin
  postMargin := clampedOr 0 50000 p.postMargin r.postMargin
  clearance  := clampedOr 0 2000000 p.clearance r.clearance
  vMin       := clampedOr 10 1000 p.vMin r.vMin

/-! ### Reel geometry (R35) -/

/-- The body of DECLARE RUNNING and LOAD REEL (section 11.6); LOAD REEL ignores the current diameter. -/
def State.reelRequest (s : State) (i : StandNo) : RunningReel :=
  let w := s.slotWord (.order i)
  { reel := { id := w 2, dFull := (w 3).toNat, core := (w 4).toNat, caliper := (w 5).toNat, splice := (w 6).toNat }
    current := if (w 1).getLsbD 0 then some (w 7).toNat else none }

/-- The checks of R35 that serve both requests: 1, 2, 3 and 5. -/
def Reel.geometryOk (r : Reel) : Bool :=
  inRange 200 13000 r.dFull && inRange 500 3000 r.core && inRange 20 200 r.caliper
    && decide (r.core + 40 ≤ r.splice) && decide (r.splice + 100 ≤ r.dFull)

/-- The geometry of DECLARE RUNNING: with check 6 on a present current diameter (R35). -/
def RunningReel.geometryOk (r : RunningReel) : Bool :=
  r.reel.geometryOk && presentInRange r.reel.core r.reel.dFull r.current

/-- The geometry of LOAD REEL: with check 4 (R35). -/
def Reel.loadOk (r : Reel) : Bool := r.geometryOk && decide (r.core + 100 ≤ r.dFull)

/-! ### Codes of the setup fields (section 11.6) -/

def decodeRate : Nat → Option FilterRate
  | 0 => some .fast
  | 1 => some .slow
  | _ => none

def decodeEdge : Nat → Option EdgeSelect
  | 0 => some .none
  | 1 => some .rise
  | 2 => some .fall
  | _ => none

def decodeTab : Nat → Option TabSelect
  | 0 => some .a
  | 1 => some .b
  | _ => none

def decodeSwitch : Nat → Option Bool
  | 0 => some false
  | 1 => some true
  | _ => none

def decodeMode : Nat → Option PhaseMode
  | 0 => some .auto
  | 1 => some .manual
  | _ => none

/-- A present field's code names one of its values (R43). -/
def codeOk {α : Type} (decode : Nat → Option α) : Option Nat → Bool
  | none => true
  | some n => (decode n).isSome

/-- A present field's value in place of the stored one (R45). -/
def codeOr {α : Type} (decode : Nat → Option α) (stored : α) : Option Nat → α
  | none => stored
  | some n => (decode n).getD stored

/-! ### Stand setup (R42 to R45) -/

/-- The 27 fields of STAND SETUP in the order of R41, each present or absent; the offset is signed. -/
structure SetupRequest where
  pathLength  : Option Nat
  zoneLength  : Option Nat
  theta       : Option Nat
  tAct        : Option Nat
  dwell       : Option Nat
  knifeDelay  : Option Nat
  knifeWidth  : Option Nat
  tAcc        : Option Nat
  tSettle     : Option Nat
  window      : Option Nat
  offset      : Option Int
  tMatch      : Option Nat
  rate        : Option Nat
  edgeSpindle : Option Nat
  edgeTab     : Option Nat
  edgeHome    : Option Nat
  tabSelect   : Option Nat
  seeThrough  : Option Nat
  break1      : Option Nat
  break2      : Option Nat
  break3      : Option Nat
  break4      : Option Nat
  phaseMode   : Option Nat
  patRun      : Option Nat
  patAccel    : Option Nat
  patSplice   : Option Nat
  patIndex    : Option Nat
deriving DecidableEq, Repr

/-- The body of STAND SETUP (section 11.6). -/
def State.setupRequest (s : State) (i : StandNo) : SetupRequest :=
  let f := s.maskedNat (.order i)
  { pathLength := f 0, zoneLength := f 1, theta := f 2, tAct := f 3, dwell := f 4, knifeDelay := f 5, knifeWidth := f 6
    tAcc := f 7, tSettle := f 8, window := f 9, offset := (s.masked (.order i) 10).map BitVec.toInt, tMatch := f 11
    rate := f 12, edgeSpindle := f 13, edgeTab := f 14, edgeHome := f 15, tabSelect := f 16, seeThrough := f 17
    break1 := f 18, break2 := f 19, break3 := f 20, break4 := f 21, phaseMode := f 22
    patRun := f 23, patAccel := f 24, patSplice := f 25, patIndex := f 26 }

/-- No present field of refused class is out of range (R43). -/
def SetupRequest.inRange (r : SetupRequest) : Bool :=
  presentInRange 0 2000000 r.pathLength && presentInRange 0 4095 r.theta
    && codeOk decodeRate r.rate && codeOk decodeEdge r.edgeSpindle && codeOk decodeEdge r.edgeTab
    && codeOk decodeEdge r.edgeHome && codeOk decodeTab r.tabSelect && codeOk decodeSwitch r.seeThrough
    && codeOk decodeSwitch r.break1 && codeOk decodeSwitch r.break2 && codeOk decodeSwitch r.break3
    && codeOk decodeSwitch r.break4 && codeOk decodeMode r.phaseMode
    && presentInRange 0 7 r.patRun && presentInRange 0 7 r.patAccel && presentInRange 0 7 r.patSplice
    && presentInRange 0 7 r.patIndex

/-- A direct change between RISE and FALL (R44). -/
def directChange (stored new : EdgeSelect) : Bool :=
  match stored, new with
  | .rise, .fall | .fall, .rise => true
  | _, _ => false

/-- A present edge select would change directly between RISE and FALL (R44). -/
def SetupRequest.edgeOrderFails (r : SetupRequest) (u : Setup) : Bool :=
  directChange u.edgeSpindle (codeOr decodeEdge u.edgeSpindle r.edgeSpindle)
    || directChange u.edgeTab (codeOr decodeEdge u.edgeTab r.edgeTab)
    || directChange u.edgeHome (codeOr decodeEdge u.edgeHome r.edgeHome)

/-- The offset lies within −20…+20, or is absent. -/
def offsetInRange : Option Int → Bool
  | none => true
  | some x => decide (-20 ≤ x) && decide (x ≤ 20)

/-- A present field of clamped class lies outside its range (R45). -/
def SetupRequest.clamps (r : SetupRequest) : Bool :=
  !(presentInRange 0 20000 r.zoneLength && presentInRange 0 500000 r.tAct && presentInRange 0 200000 r.dwell
    && presentInRange 0 200000 r.knifeDelay && presentInRange 1000 200000 r.knifeWidth
    && presentInRange 1000 60000 r.tAcc && presentInRange 0 30000 r.tSettle && presentInRange 1 50 r.window
    && offsetInRange r.offset && presentInRange 2000 60000 r.tMatch)

/-- The merge of R45 into the active setup set. -/
def SetupRequest.merge (r : SetupRequest) (u : Setup) : Setup where
  pathLength  := r.pathLength.getD u.pathLength
  zoneLength  := clampedOr 0 20000 u.zoneLength r.zoneLength
  theta       := r.theta.getD u.theta
  tAct        := clampedOr 0 500000 u.tAct r.tAct
  dwell       := clampedOr 0 200000 u.dwell r.dwell
  knifeDelay  := clampedOr 0 200000 u.knifeDelay r.knifeDelay
  knifeWidth  := clampedOr 1000 200000 u.knifeWidth r.knifeWidth
  tAcc        := clampedOr 1000 60000 u.tAcc r.tAcc
  tSettle     := clampedOr 0 30000 u.tSettle r.tSettle
  window      := clampedOr 1 50 u.window r.window
  offset      := (r.offset.map (clampInt (-20) 20)).getD u.offset
  tMatch      := clampedOr 2000 60000 u.tMatch r.tMatch
  rate        := codeOr decodeRate u.rate r.rate
  edgeSpindle := codeOr decodeEdge u.edgeSpindle r.edgeSpindle
  edgeTab     := codeOr decodeEdge u.edgeTab r.edgeTab
  edgeHome    := codeOr decodeEdge u.edgeHome r.edgeHome
  tabSelect   := codeOr decodeTab u.tabSelect r.tabSelect
  seeThrough  := codeOr decodeSwitch u.seeThrough r.seeThrough
  breakEnable := #v[codeOr decodeSwitch u.breakEnable[0] r.break1, codeOr decodeSwitch u.breakEnable[1] r.break2,
    codeOr decodeSwitch u.breakEnable[2] r.break3, codeOr decodeSwitch u.breakEnable[3] r.break4]
  phaseMode   := codeOr decodeMode u.phaseMode r.phaseMode
  patRun      := r.patRun.getD u.patRun
  patAccel    := r.patAccel.getD u.patAccel
  patSplice   := r.patSplice.getD u.patSplice
  patIndex    := r.patIndex.getD u.patIndex

/-! ### Revise timing (R115, R116) -/

/-- The five fields of REVISE TIMING, each present or absent. -/
structure TimingRequest where
  theta      : Option Nat
  tAct       : Option Nat
  dwell      : Option Nat
  knifeDelay : Option Nat
  knifeWidth : Option Nat
deriving DecidableEq, Repr

/-- The body of REVISE TIMING (section 11.6). -/
def State.timingRequest (s : State) (i : StandNo) : TimingRequest :=
  let f := s.maskedNat (.command i)
  ⟨f 0, f 1, f 2, f 3, f 4⟩

/-- A present field of clamped class lies outside its range (R115 step 3). -/
def TimingRequest.clamps (r : TimingRequest) : Bool :=
  !(presentInRange 0 500000 r.tAct && presentInRange 0 200000 r.dwell && presentInRange 0 200000 r.knifeDelay
    && presentInRange 1000 200000 r.knifeWidth)

/-- The merge into the active set (R116). -/
def TimingRequest.mergeActive (r : TimingRequest) (u : Setup) : Setup :=
  { u with
    theta := r.theta.getD u.theta
    tAct := clampedOr 0 500000 u.tAct r.tAct
    dwell := clampedOr 0 200000 u.dwell r.dwell
    knifeDelay := clampedOr 0 200000 u.knifeDelay r.knifeDelay
    knifeWidth := clampedOr 1000 200000 u.knifeWidth r.knifeWidth }

/-- The merge onto the staged set (R116). -/
def TimingRequest.mergeStaged (r : TimingRequest) (g : StagedTiming) : StagedTiming where
  theta      := r.theta.or g.theta
  tAct       := clampedOver 0 500000 g.tAct r.tAct
  dwell      := clampedOver 0 200000 g.dwell r.dwell
  knifeDelay := clampedOver 0 200000 g.knifeDelay r.knifeDelay
  knifeWidth := clampedOver 1000 200000 g.knifeWidth r.knifeWidth

end Sys2Proof.Machine
end

