-- ==== Sys2Proof/Machine/Intake.lean ====
section
/-!
DEFINITION. The intake of the attention set's members (R179 to R182, R184).
-/
namespace Sys2Proof.Machine

/-- The ATTENTION bit of a slot (R179). -/
def attentionBit : Slot → Nat
  | .order i => i.val
  | .command i => 8 + i.val
  | .line => 16

/-- The ATTENTION bit of RECORDS RETURNED (R179). -/
def returnedBit : Nat := 17

/-- The bit of a member is in the attention set. -/
def State.attends (s : State) (bit : Nat) : Bool := s.host.attention.getLsbD bit

/-- The member is removed from the attention set (R180). -/
def removeMember (bit : Nat) (s : State) : State :=
  s.modHost fun h => { h with attention := h.attention &&& ~~~BitVec.twoPow 18 bit }

/-- The kinds permitted in a slot (section 11.6). -/
def kindPermitted : Slot → Nat → Bool
  | .line, k => k == 0x01 || k == 0x02 || k == 0x03
  | .order _, k => k == 0x10 || k == 0x11 || k == 0x12 || k == 0x13
  | .command _, k => k == 0x20 || k == 0x21 || k == 0x22 || k == 0x23 || k == 0x24 || k == 0x25 || k == 0x26

/-- The slot's header reads POSTED (R180). -/
def State.posted (s : State) (slot : Slot) : Bool := headerState (s.header slot) == 1

/-- The slot awaits intake, POSTED, with a kind (R180). -/
def requestDue (slot : Slot) (kind : Nat) (s : State) : Bool :=
  s.attends (attentionBit slot) && s.posted slot && headerKind (s.header slot) == kind

/-- The configuration image at an intake: always at one of the ORDER slot, at one of the COMMAND slot while the ORDER
slot's header reads DONE (R184). -/
def intakeImage (slot : Slot) (s : State) : State :=
  match slot with
  | .line => s
  | .order i => writeImage i 1 s
  | .command i => if s.orderDone i then writeImage i 1 s else s

/-- The DONE header: state DONE, the kind as read, the result, and 0 in bits 24 to 31 (R180). -/
def doneHeader (kind : Nat) (r : Result) : Word := packWord [⟨0, 8, 2⟩, ⟨8, 8, kind⟩, ⟨16, 8, r.code⟩]

/-- STAND NEWS for the stand of an ORDER or COMMAND slot (R180). -/
def raiseSlotNews (slot : Slot) (s : State) : State :=
  match slot with
  | .line => s
  | .order i | .command i => raise (.standNews i) s

/-- The answer in a slot (R180): the header, SLOT_DONE, and STAND NEWS for a stand's slot. -/
def answer (slot : Slot) (kind : Nat) (r : Result) (s : State) : State :=
  raiseSlotNews slot (raise .slotDone (s.setMem (s.mem.writeWord (slotBase slot) (doneHeader kind r))))

/-- The intake event of a POSTED slot (R180): the member is removed, the owning rule acts, the blocks it touched are
written, then the image, then the DONE header. -/
def intakeEvent (slot : Slot) (owner : State → Result × State) (s : State) : State :=
  let kind := headerKind (s.header slot)
  let s1 := removeMember (attentionBit slot) s
  let (r, s2) := owner s1
  answer slot kind r (intakeImage slot (commit s1 s2))

/-- The meaning of a request: its intake event takes place when the slot awaits intake with the request's kind. -/
def intake (slot : Slot) (kind : Nat) (owner : State → Result × State) (s : State) :
    Host.Outcome State Fault Refusal :=
  if !s.host.resetLow && requestDue slot kind s then .next (intakeEvent slot owner s) else .next s

/-- SLOT_INTAKE_NOT_POSTED is due: the slot awaits intake and its header is not POSTED (R180). -/
def notPostedDue (slot : Slot) (s : State) : Bool := s.attends (attentionBit slot) && !s.posted slot

/-- SLOT_INTAKE_NOT_POSTED (R180): the member is removed, and nothing is written or raised. -/
def execSlotIntakeNotPosted (slot : Slot) (s : State) : Host.Outcome State Fault Refusal :=
  takesPlace (notPostedDue slot s) (removeMember (attentionBit slot)) s

/-- REFUSED_KIND is due: the slot awaits intake, POSTED, with a kind it does not permit (R180). -/
def kindRefusedDue (slot : Slot) (s : State) : Bool :=
  s.attends (attentionBit slot) && s.posted slot && !kindPermitted slot (headerKind (s.header slot))

/-- REFUSED_KIND (R180, R182): judged before any stand state or field is looked at. -/
def execRefusedKind (slot : Slot) (s : State) : Host.Outcome State Fault Refusal :=
  if !s.host.resetLow && kindRefusedDue slot s then .next (intakeEvent slot (fun s => (.refusedKind, s)) s)
  else .next s

/-- RECORDS_RETURNED (R172): the indication is removed and a placement pass made. -/
def recordsReturnedEvent (s : State) : State := placementPass none (removeMember returnedBit s)

/-- RECORDS_RETURNED (R172). -/
def execRecordsReturned (s : State) : Host.Outcome State Fault Refusal :=
  takesPlace (s.attends returnedBit) recordsReturnedEvent s

end Sys2Proof.Machine
end

