-- ==== Sys2Proof/Machine/CommandRequests.lean ====
section
/-!
DEFINITION. The requests of the COMMAND slots.
-/
namespace Sys2Proof.Machine

/-- The line refuses a start (R78 step 2). -/
def lineRefuses (s : State) : Bool :=
  decide (s.line.vLine < s.line.params.vMin) || s.line.encoderFault || s.safeAsserted

/-- SPLICE NOW's own rule (R78). -/
def spliceNowOwner (i : StandNo) (s : State) : Result × State :=
  match s.phase i with
  | .prepared | .held => if lineRefuses s then (.refusedLine, s) else (.accepted, enter i .accelerating s)
  | .idle | .running => (.refusedNoReel, s)
  | .accelerating | .matching | .armed | .pasting | .cutting | .indexing | .winddown | .faulted => (.refusedBusy, s)

/-- SPLICE_NOW (R78). -/
def execSpliceNow (i : StandNo) (s : State) : Host.Outcome State Fault Refusal :=
  intake (.command i) 0x20 (spliceNowOwner i) s

/-- ABORT's own rule (R90). -/
def abortOwner (i : StandNo) (s : State) : Result × State :=
  match s.phase i with
  | .accelerating | .matching | .armed => (.accepted, abortAttempt i .hostAbort .held s)
  | .pasting | .cutting | .indexing | .winddown | .faulted => (.refusedBusy, s)
  | .idle | .running | .prepared | .held => (.refusedNoReel, s)

/-- ABORT (R90). -/
def execAbort (i : StandNo) (s : State) : Host.Outcome State Fault Refusal :=
  intake (.command i) 0x21 (abortOwner i) s

/-- RESUME's own rule (R79). -/
def resumeOwner (i : StandNo) (s : State) : Result × State :=
  match s.phase i with
  | .held => (.accepted, evaluateStart i (enter i .prepared s))
  | .prepared => (.accepted, s)
  | .idle | .running => (.refusedNoReel, s)
  | .accelerating | .matching | .armed | .pasting | .cutting | .indexing | .winddown | .faulted => (.refusedBusy, s)

/-- RESUME (R79). -/
def execResume (i : StandNo) (s : State) : Host.Outcome State Fault Refusal :=
  intake (.command i) 0x22 (resumeOwner i) s

/-- The states in which a STAND RESET finds a splice in progress (R95). -/
def Phase.inSplice : Phase → Bool
  | .accelerating | .matching | .armed | .pasting | .cutting | .indexing => true
  | .idle | .running | .prepared | .held | .winddown | .faulted => false

/-- The splice in progress is closed, by the stand's state (first part of R95). -/
def closeInProgress (i : StandNo) (s : State) : State :=
  match s.phase i with
  | .accelerating | .matching | .armed | .pasting =>
    createAborted i .standReset (releaseWithoutNip i (withdraw i s))
  | .cutting | .indexing => closeRecord i .faultAfterNip (some .standReset) s
  | .idle | .running | .prepared | .held | .winddown | .faulted => s

/-- The stand's blocks take their STAND RESET values (second part of R95; R32, R51, R71, R112, R132). -/
def Stand.resetBlocks (d : Stand) : Stand :=
  Stand.forceDuty
    { d with
      running := none
      ready := none
      staged := .empty
      spindle := d.spindle.standReset
      tab := d.tab.standReset
      speed := .atReset
      paste := .atReset
      io := { d.io with jogDeadline := none }
      seq := { d.seq with
        cause := if d.seq.phase.inSplice then some .standReset else none
        target := none, matchDeadline := none, indexDeadline := none, attempt := .absent } }

/-- STAND RESET's own rule (R95). The entry to IDLE is a change of state only from another state (log entry 12). -/
def standResetOwner (i : StandNo) (s : State) : Result × State :=
  let s1 := (closeInProgress i s).modStand i Stand.resetBlocks
  (.accepted, if s.phase i = .idle then s1 else enter i .idle s1)

/-- STAND_RESET (R95). -/
def execStandReset (i : StandNo) (s : State) : Host.Outcome State Fault Refusal :=
  intake (.command i) 0x23 (standResetOwner i) s

/-- The states in which JOG INDEX is accepted (R30). -/
def Phase.admitsJog : Phase → Bool
  | .idle | .running | .prepared | .held | .faulted => true
  | .accelerating | .matching | .armed | .pasting | .cutting | .indexing | .winddown => false

/-- JOG INDEX's own rule (R30). -/
def jogIndexOwner (i : StandNo) (s : State) : Result × State :=
  if (s.phase i).admitsJog ∧ s.safeAsserted = false then
    (.accepted, s.modStand i fun d => { d with io := { d.io with jogDeadline := some (s.line.usClock + 250000) } })
  else (.refusedBusy, s)

/-- JOG_INDEX (R30). -/
def execJogIndex (i : StandNo) (s : State) : Host.Outcome State Fault Refusal :=
  intake (.command i) 0x24 (jogIndexOwner i) s

/-- Where an accepted REVISE TIMING is merged (R115, R116): into the staged set, into the active set, or nowhere. -/
inductive TimingTarget where
  | active
  | staged
  | refused
deriving DecidableEq, Repr

/-- The merge target by the stand's state (R115, R116). -/
def timingTarget : Phase → TimingTarget
  | .idle | .running | .prepared | .held | .winddown | .faulted => .active
  | .accelerating | .matching | .armed => .staged
  | .pasting | .cutting | .indexing => .refused

/-- REVISE TIMING's own rule (R115, R116). -/
def reviseTimingOwner (i : StandNo) (s : State) : Result × State :=
  let r := s.timingRequest i
  match timingTarget (s.phase i) with
  | .refused => (.refusedBusy, s)
  | .active =>
    if presentInRange 0 4095 r.theta then
      (acceptedWith r.clamps, s.modStand i fun d => { d with setup := r.mergeActive d.setup })
    else (.refusedRange, s)
  | .staged =>
    if presentInRange 0 4095 r.theta then
      (acceptedWith r.clamps, s.modStand i fun d => { d with staged := r.mergeStaged d.staged })
    else (.refusedRange, s)

/-- REVISE_TIMING (R115). -/
def execReviseTiming (i : StandNo) (s : State) : Host.Outcome State Fault Refusal :=
  intake (.command i) 0x25 (reviseTimingOwner i) s

/-- SET PHASE LINES' own rule (R29). -/
def setPhaseLinesOwner (i : StandNo) (s : State) : Result × State :=
  let value := (s.slotWord (.command i) 1).toNat
  if value ≤ 7 then (.accepted, s.modStand i fun d => { d with io := { d.io with manualValue := value } })
  else (.refusedRange, s)

/-- SET_PHASE_LINES (R29). -/
def execSetPhaseLines (i : StandNo) (s : State) : Host.Outcome State Fault Refusal :=
  intake (.command i) 0x26 (setPhaseLinesOwner i) s

end Sys2Proof.Machine
end

