-- ==== Sys2Proof/Machine/HostBus.lean ====
section
/-!
DEFINITION. The host's writes (R177, R179, R185 to R187), the device reset and the table-area initialisation (R188,
R189).
-/
namespace Sys2Proof.Machine

/-! ### Device reset (R188) -/

/-- The levels on a stand's pins, in the order of R15. -/
def StandInputs.pins (x : StandInputs) : BitVec 8 :=
  BitVec.ofNat 8 (flag x.spindle.pin + 2 * flag x.tabA.pin + 4 * flag x.tabB.pin + 8 * flag x.indexHome.pin
    + 16 * flag x.breaks[0].pin + 32 * flag x.breaks[1].pin + 64 * flag x.breaks[2].pin + 128 * flag x.breaks[3].pin)

/-- The levels on the pins, as the state holds them. -/
def State.pins (s : State) : Pins where
  a      := s.line.refA
  b      := s.line.refB
  cut    := s.line.cut.pin
  safe   := s.safe.pin
  stands := mapStands (fun d => d.io.inputs.pins) s.stands

/-- The end of a device reset with the first samples `pins` (R188): the blocks start from their reset values, the
initialisation begins, and a SAFE that is asserted raises its notice (R23). -/
def endOfReset (pins : Pins) (s : State) : State :=
  let s1 := State.afterReset pins false s.mem s.free s.pending
  if s1.safeAsserted then raise .safe s1 else s1

/-- The RESET pin goes low (R188): every block stops at once and takes its reset values, and the reset lasts. -/
def pinReset (s : State) : State := State.afterReset s.pins true s.mem s.free s.pending

/-- DEVICE_RESET (R188). A UNIT write is a reset with bit 0 set, ends within the write, and has no effect while the
RESET pin is low. -/
def execDeviceReset (source : ResetSource) (s : State) : Host.Outcome State Fault Refusal :=
  match source with
  | .pin => .next (pinReset s)
  | .unitWrite value => if !s.host.resetLow && value.getLsbD 0 then .next (endOfReset s.pins s) else .next s

/-- RESET_RELEASE (R188): the RESET pin goes high; `pins` are the first samples. -/
def execResetRelease (pins : Pins) (s : State) : Host.Outcome State Fault Refusal :=
  if s.host.resetLow then .next (endOfReset pins s) else .next s

/-! ### Table-area initialisation (R189) -/

/-- Step 1: every slot is written EMPTY, all its words at one moment (DESIGN CHOICE, log entry 29). -/
def clearSlots (m : Memory) : Memory := m.clear 0 400

/-- Step 2: every record entry is written with every word 0, all at one moment (DESIGN CHOICE, log entry 29). -/
def clearRecords (m : Memory) : Memory := m.clear (recordBase 0) 512

/-- The first two steps of the initialisation are brought from stage `fromStage` to stage `toStage` (R189). DESIGN CHOICE: a
step clears all its words at one moment, so that a host write comes before or after the whole step, never between two of its
words; R189 does not say whether the words of a step are cleared one after another (log entry 29). -/
def clearTo (fromStage toStage : Nat) (m : Memory) : Memory :=
  let m1 := if fromStage = 0 ∧ 1 ≤ toStage then clearSlots m else m
  if fromStage ≤ 1 ∧ 2 ≤ toStage then clearRecords m1 else m1

/-- The initialisation has come at least to stage `stage` of its first two steps. -/
def initialiseTo (stage : Nat) (s : State) : State :=
  let stageNow := max s.host.initStage (min stage 2)
  (s.setMem (clearTo s.host.initStage stageNow s.mem)).modHost fun h => { h with initStage := stageNow }

/-- Step 3: the line status block and the eight stand status blocks are written, with their update counts as they
stand (0 since the reset, R183). -/
def writeAllBlocks (s : State) : State := forStands writeStandBlock (writeLineBlock s)

/-- The end of the initialisation (R189): what is left of steps 1 and 2, then step 3, and INIT becomes 0. -/
def initialisationEndEvent (s : State) : State :=
  (writeAllBlocks (initialiseTo 2 s)).modHost fun h => { h with init := false }

/-- INITIALISATION_END (R189). -/
def execInitialisationEnd (s : State) : Host.Outcome State Fault Refusal :=
  takesPlace s.host.init initialisationEndEvent s

/-! ### Register writes -/

/-- A write to ATTENTION adds the members whose bit is 1; while INIT is 1 it is discarded whole (R179). -/
def attentionWriteEvent (value : Word) (s : State) : State :=
  s.modHost fun h => { h with attention := h.attention ||| value.setWidth 18 }

/-- ATTENTION_WRITE (R179). -/
def execAttentionWrite (value : Word) (s : State) : Host.Outcome State Fault Refusal :=
  takesPlace (!s.host.init) (attentionWriteEvent value) s

/-- A write to NOTICE clears each bit written as 1 (R185). -/
def noticeWriteEvent (value : Word) (s : State) : State :=
  s.modHost fun h => { h with notice := h.notice &&& ~~~(value.setWidth 24) }

/-- NOTICE_WRITE (R185). -/
def execNoticeWrite (value : Word) (s : State) : Host.Outcome State Fault Refusal :=
  takesPlace true (noticeWriteEvent value) s

/-- NOTICE_ENABLE_WRITE (R186): bits 0 to 23 are replaced. -/
def execNoticeEnableWrite (value : Word) (s : State) : Host.Outcome State Fault Refusal :=
  takesPlace true (fun s => s.modHost fun h => { h with enable := value.setWidth 24 }) s

/-- NOTICE_LEVEL_WRITE (R186): bits 0 to 23 are replaced. -/
def execNoticeLevelWrite (value : Word) (s : State) : Host.Outcome State Fault Refusal :=
  takesPlace true (fun s => s.modHost fun h => { h with level := value.setWidth 24 }) s

/-- UNDEFINED_REGISTER_WRITE (R177, R187): no effect. A register write that has a row of its own is not this
command. -/
def execUndefinedRegisterWrite (_offset _value : Word) (s : State) : Host.Outcome State Fault Refusal :=
  takesPlace true id s

/-! ### Table writes -/

/-- A host write taken during the initialisation meets it at a stage the spec leaves open: the free value brings it
there first (R189; log entry 6). -/
def meetInitialisation (s : State) : State :=
  if s.host.init then { initialiseTo (Config.initialisationProgress s.free) s with free := s.free + 1 } else s

/-- The host's word is stored (R177). -/
def hostStore (offset : Nat) (value : Word) (s : State) : State :=
  let s1 := meetInitialisation s
  s1.setMem (s1.mem.writeWord offset value)

/-- HOST_TABLE_WRITE (R171, R177, R178): the word is stored; no effect while the RESET pin is low (R188). -/
def execHostTableWrite (offset : BitVec 13) (value : Word) (s : State) : Host.Outcome State Fault Refusal :=
  if offset.toNat % 4 = 0 then takesPlace true (hostStore offset.toNat value) s else .fault .misalignedTableAccess

end Sys2Proof.Machine
end

