-- ==== Sys2Proof/Machine/Boundaries.lean ====
section
/-!
DEFINITION. Copy boundaries and cut status (01_line_reference.md sections 1.4 and 1.5).
-/
namespace Sys2Proof.Machine

/-- cutoff/2 (R7): floor of half the cutoff in force. -/
def halfCutoff (p : LineParams) : Nat := p.cutoff / 2

/-- The line reference's part of a real boundary at `cb` (R7, R8). -/
def LineRef.realBoundary (cb : Word) (l : LineRef) : LineRef :=
  { l with
    copyNumber := l.copyNumber + 1, boundaryRef := some cb, lastKind := some .real
    cutStatus := .normal, syntheticRun := 0 }

/-- The cut status from the synthetic run count after its increment (R10). -/
def syntheticStatus (run : Nat) : CutStatus := if run ≤ 8 then .synthetic else .fault

/-- The line reference's part of a synthetic boundary at `cb` (R8, R10). -/
def LineRef.syntheticBoundary (cb : Word) (l : LineRef) : LineRef :=
  let run := satInc max16 l.syntheticRun
  { l with
    copyNumber := l.copyNumber + 1, boundaryRef := some cb, lastKind := some .synthetic
    cutStatus := syntheticStatus run, syntheticRun := run }

/-- The boundary is handed to the tracker, and then the line status block has a rewrite event (R8, R13). -/
def handBoundary (cb : Word) (s : State) : State := touchLine (trackBoundary cb s.line.copyNumber s)

/-- A real copy boundary (R7, R8). -/
def makeReal (cb : Word) (s : State) : State := handBoundary cb (s.modLine fun l => l.realBoundary cb)

/-- The notice of a synthetic boundary, from the run count after its increment (R10): CUT_LOST at 1, CUT_FAULT
at 9. -/
def raiseCutNotice (run : Nat) (s : State) : State :=
  if run = 1 then raise .cutLost s else if run = 9 then raise .cutFault s else s

/-- A synthetic copy boundary (R8 to R10). -/
def makeSynthetic (cb : Word) (s : State) : State :=
  let s1 := s.modLine fun l => l.syntheticBoundary cb
  handBoundary cb (raiseCutNotice s1.line.syntheticRun s1)

/-- The synthetic threshold of a boundary reference (R9). -/
def syntheticThreshold (p : LineParams) (ref : Word) : Word :=
  ref + BitVec.ofNat 32 p.cutoff + BitVec.ofNat 32 (halfCutoff p)

/-- The line count is at or after the synthetic threshold; the place of the boundary then due (R9). -/
def syntheticDue (l : LineRef) : Option Word :=
  match l.boundaryRef with
  | none => none
  | some ref =>
    if atOrAfter l.lineCount (syntheticThreshold l.params ref) then some (ref + BitVec.ofNat 32 l.params.cutoff)
    else none

/-- Synthetic boundaries, at most `fuel` of them, for as long as the threshold is reached (R9). -/
def syntheticLoop : Nat → State → State
  | 0, s => s
  | fuel + 1, s =>
    match syntheticDue s.line with
    | some cb => syntheticLoop fuel (makeSynthetic cb s)
    | none => s

/-- An upper bound for the boundaries that one examination makes: each takes one cutoff of the distance from the
boundary reference to the line count. -/
def syntheticBound (l : LineRef) : Nat :=
  match l.boundaryRef with
  | none => 0
  | some ref => (l.lineCount - ref).toNat / l.params.cutoff + 1

/-- The examination of the synthetic threshold (R9). -/
def examineThreshold (s : State) : State := syntheticLoop (syntheticBound s.line) s

/-- The judgement of a CUT edge at line count c (R7). -/
def judgeCut (c : Word) (s : State) : State :=
  if s.line.v ≤ 0 then s
  else
    match s.line.boundaryRef with
    | none => makeReal c s
    | some ref =>
      if atOrAfter c (ref + BitVec.ofNat 32 (halfCutoff s.line.params)) then makeReal c s
      else s.modLine fun l => { l with spuriousCuts := satInc max32 l.spuriousCuts }

end Sys2Proof.Machine
end

