-- ==== Sys2Proof/Machine/LineRequests.lean ====
section
/-!
DEFINITION. The requests of the LINE slot: LINE SETUP, GATE OVERRIDE, FREEZE and CLEAR TRACKING.
-/
namespace Sys2Proof.Machine

/-- The hand-over of a changed G (R12, R158): the run queue is emptied and the gate output set. -/
def handGateDelay (before : LineParams) (s : State) : State :=
  if s.line.params.gateDelay = before.gateDelay then s else s.modTracker Tracker.emptyQueue

/-- The hand-over of a changed cutoff (R12): the synthetic threshold is examined at once. -/
def handCutoff (before : LineParams) (s : State) : State :=
  if s.line.params.cutoff = before.cutoff then s else examineThreshold s

/-- LINE SETUP's own rule (R11, R12): G is handed over before the cutoff (log entry 14). -/
def lineSetupOwner (s : State) : Result × State :=
  let r := s.lineRequest
  if r.inRange then
    let before := s.line.params
    let merged := s.modLine fun l => { l with params := r.merge l.params }
    (acceptedWith r.clamps, handCutoff before (handGateDelay before merged))
  else (.refusedRange, s)

/-- LINE_SETUP (R11). -/
def execLineSetup (s : State) : Host.Outcome State Fault Refusal := intake .line 0x01 lineSetupOwner s

/-- The mode code of GATE OVERRIDE (section 11.6). -/
def State.gateCode (s : State) : Nat := (s.slotWord .line 1).toNat

/-- The pending mode a code names (R155, section 11.6). -/
def decodePendingMode : Nat → Option PendingMode
  | 0 => some .normal
  | 1 => some .forceDivert
  | 2 => some .forcePass
  | _ => none

/-- GATE OVERRIDE's own rule for a code other than FREEZE (R155). -/
def gateOverrideOwner (s : State) : Result × State :=
  match decodePendingMode s.gateCode with
  | some m => (.accepted, s.modTracker fun t => { t with pendingMode := some m })
  | none => (.refusedRange, s)

/-- GATE_OVERRIDE (R155): the request whose code is not FREEZE. -/
def execGateOverride (s : State) : Host.Outcome State Fault Refusal :=
  if s.gateCode = 3 then .next s else intake .line 0x02 gateOverrideOwner s

/-- FREEZE's own rule (R156): it takes effect at its intake. -/
def freezeOwner (s : State) : Result × State :=
  (.accepted, s.modTracker fun t => { t with frozenLevel := some t.output, mode := .frozen, pendingMode := none })

/-- FREEZE (R156): the request whose code is FREEZE. -/
def execFreeze (s : State) : Host.Outcome State Fault Refusal :=
  if s.gateCode = 3 then intake .line 0x02 freezeOwner s else .next s

/-- CLEAR TRACKING's own rule (R157). -/
def clearTrackingOwner (s : State) : Result × State :=
  (.accepted, (setEntries [] (retireLost s.tracker.entries s)).modTracker Tracker.emptyQueue)

/-- CLEAR_TRACKING (R157). -/
def execClearTracking (s : State) : Host.Outcome State Fault Refusal := intake .line 0x03 clearTrackingOwner s

end Sys2Proof.Machine
end

