-- ==== Sys2Proof/Machine/Inputs.lean ====
section
/-!
DEFINITION. The conditioned inputs (02_stand_inputs_and_outputs.md, R6, R15 to R24): the filters, what a conditioned
change is, and the event it makes.
-/
namespace Sys2Proof.Machine

/-! ### Filters (R6, R15) -/

/-- The input has changed to the other level: pin and last sample stand at it, and the count is 0 (R15). -/
def Input.flip (x : Input) : Input := ⟨!x.level, !x.level, !x.level, 0⟩

/-- The count of equal samples after a sample of the pin (R15). -/
def Input.countAfter (x : Input) : Nat :=
  if x.pin = x.level then 0 else if x.pin ≠ x.last then 1 else x.count + 1

/-- The sample of the pin brings the count to 3: the conditioned level changes (R15). -/
def Input.confirms (x : Input) : Bool := 3 ≤ x.countAfter

/-- A sample of the pin that does not change the conditioned level (R15). -/
def Input.sampled (x : Input) : Input := { x with last := x.pin, count := x.countAfter }

/-- The restart of the count at a change of the filter rate (R16). -/
def Input.restart (x : Input) : Input := { x with count := 0 }

/-- One of a stand's inputs. -/
def StandInputs.get (x : StandInputs) : StandInput → Input
  | .spindle => x.spindle
  | .tabA => x.tabA
  | .tabB => x.tabB
  | .indexHome => x.indexHome
  | .brk k => x.breaks[k.val]

/-- The inputs with one of them replaced. -/
def StandInputs.put (x : StandInputs) (n : StandInput) (y : Input) : StandInputs :=
  match n with
  | .spindle => { x with spindle := y }
  | .tabA => { x with tabA := y }
  | .tabB => { x with tabB := y }
  | .indexHome => { x with indexHome := y }
  | .brk k => { x with breaks := x.breaks.set k.val y k.isLt }

/-- The inputs of a stand, each changed by f. -/
def StandInputs.map (f : Input → Input) (x : StandInputs) : StandInputs :=
  ⟨f x.spindle, f x.tabA, f x.tabB, f x.indexHome,
    #v[f x.breaks[0], f x.breaks[1], f x.breaks[2], f x.breaks[3]]⟩

/-- One of the part's conditioned inputs: CUT, SAFE or an input of a stand. -/
inductive Line where
  | cut
  | safe
  | stand (i : StandNo) (n : StandInput)
deriving DecidableEq, Repr

/-- The filter of an input. -/
def State.input (s : State) : Line → Input
  | .cut => s.line.cut
  | .safe => s.safe
  | .stand i n => (s.stand i).io.inputs.get n

/-- The state with the filter of an input replaced. -/
def putInput (n : Line) (x : Input) (s : State) : State :=
  match n with
  | .cut => s.modLine fun l => { l with cut := x }
  | .safe => { s with safe := x }
  | .stand i k => s.modStand i fun d => { d with io := { d.io with inputs := d.io.inputs.put k x } }

/-- The conditioned level of an input changes to the other level (R15). -/
def flipInput (n : Line) (s : State) : State := putInput n (s.input n).flip s

/-! ### What a conditioned change is -/

/-- The edge select makes a change to `level` a mark event (R17). -/
def EdgeSelect.selects : EdgeSelect → Bool → Bool
  | .none, _ => false
  | .rise, level => level
  | .fall, level => !level

/-- The tab sensor that TAB select names (R18). -/
def Stand.selectedTab (d : Stand) : StandInput :=
  match d.setup.tabSelect with
  | .a => .tabA
  | .b => .tabB

/-- A tab mark that arrives now is masked and discarded (R20). -/
def Stand.masksTab (d : Stand) : Bool := d.paste.oneShot == .active && !d.setup.seeThrough

/-- A change of SPINDLE is a spindle mark (R17). -/
def spindleMarkDue (s : State) (i : StandNo) : Bool :=
  let d := s.stand i
  d.setup.edgeSpindle.selects (!(s.input (.stand i .spindle)).level)

/-- A change of the selected TAB input is a tab mark that is not discarded (R17, R20). -/
def tabMarkDue (s : State) (i : StandNo) : Bool :=
  let d := s.stand i
  d.setup.edgeTab.selects (!(s.input (.stand i d.selectedTab)).level) && !d.masksTab

/-- A change of INDEX HOME is an INDEX HOME mark (R17). -/
def homeMarkDue (s : State) (i : StandNo) : Bool :=
  (s.stand i).setup.edgeHome.selects (!(s.input (.stand i .indexHome)).level)

/-- BREAK k+1 is enabled (R21). -/
def Setup.breakEnabled (u : Setup) (k : Fin 4) : Bool := u.breakEnable[k.val]

/-- BREAK k+1 becoming asserted is a web break: it is released, enabled, and the group is armed (R21). -/
def webBreakDue (s : State) (i : StandNo) (k : Fin 4) : Bool :=
  let d := s.stand i
  !(s.input (.stand i (.brk k))).level && d.setup.breakEnabled k && d.io.breakArmed

/-- BREAK k+1 is asserted, so its change is a release (R21, R22). -/
def breakReleaseDue (s : State) (i : StandNo) (k : Fin 4) : Bool := (s.input (.stand i (.brk k))).level

/-- CUT is low, so its change is a CUT edge (R6). -/
def cutEdgeDue (s : State) : Bool := !s.line.cut.level

/-- The change of an input is no mark, break or release event, or it is a spindle mark discarded outside the measuring
states or a masked tab mark: it updates only the conditioned level (R15, R17, R20, R21, section 4.1). -/
def levelOnly (s : State) : ChangedInput → Bool
  | .cut => !cutEdgeDue s
  | .stand i .spindle => !spindleMarkDue s i || !(s.phase i).isMeasuring
  | .stand i .tabA => !((s.stand i).selectedTab == .tabA && tabMarkDue s i)
  | .stand i .tabB => !((s.stand i).selectedTab == .tabB && tabMarkDue s i)
  | .stand i .indexHome => !homeMarkDue s i
  | .stand i (.brk k) => !webBreakDue s i k && !breakReleaseDue s i k

/-! ### The events -/

/-- A spindle mark (R17, R53). -/
def spindleMarkEvent (i : StandNo) (s : State) : State := takeSpindleMark i (flipInput (.stand i .spindle) s)

/-- A tab mark of the selected sensor (R17, R64 to R69). -/
def tabMarkEvent (i : StandNo) (s : State) : State :=
  takeTabMark i (flipInput (.stand i (s.stand i).selectedTab) s)

/-- An INDEX HOME mark (R17, R86). -/
def homeMarkEvent (i : StandNo) (s : State) : State := takeHomeMark i (flipInput (.stand i .indexHome) s)

/-- A web break (R21): the group is disarmed, the notice raised, and the event given to the sequencer. -/
def webBreakEvent (i : StandNo) (k : Fin 4) (s : State) : State :=
  let s1 := (flipInput (.stand i (.brk k)) s).modStand i fun d => { d with io := { d.io with breakArmed := false } }
  webBreakConsequence i (raise .webBreak s1)

/-- An enabled BREAK input is asserted (R21, R22). -/
def Stand.anyBreakAsserted (d : Stand) : Bool :=
  (d.setup.breakEnabled 0 && d.io.inputs.breakLevel 0) || (d.setup.breakEnabled 1 && d.io.inputs.breakLevel 1)
    || (d.setup.breakEnabled 2 && d.io.inputs.breakLevel 2) || (d.setup.breakEnabled 3 && d.io.inputs.breakLevel 3)

/-- The release of a BREAK input (R22): the group re-arms when no enabled input remains asserted. -/
def breakReleaseEvent (i : StandNo) (k : Fin 4) (s : State) : State :=
  (flipInput (.stand i (.brk k)) s).modStand i fun d =>
    if d.anyBreakAsserted then d else { d with io := { d.io with breakArmed := true } }

/-- A CUT edge (R6, R7). -/
def cutEdgeEvent (s : State) : State := judgeCut s.line.lineCount (flipInput .cut s)

/-- Stand i's outputs and drive reference are forced to 0 (R24, R111). -/
def safeForce (i : StandNo) (s : State) : State :=
  s.modStand i fun d =>
    Stand.forceDuty (Stand.setRef 0 { d with speed := { d.speed with frozen := false } })

/-- A jog hold that runs is ended by SAFE, and its end is given to the sequencer (R31, R76). -/
def safeEndsJog (i : StandNo) (s : State) : State :=
  if (s.stand i).io.jogDeadline.isSome then
    evaluateStart i (s.modStand i fun d => { d with io := { d.io with jogDeadline := none } })
  else s

/-- The SAFE assertion event (R23): the notice, the forcing of all stands, the ends of the jog holds, and the
sequencers' consequences (R92), stand by stand (log entry 17). -/
def safeAssertionEvent (s : State) : State :=
  forStands safeConsequence (forStands safeEndsJog (forStands safeForce (raise .safe (flipInput .safe s))))

/-- SAFE is released (R24): the outputs follow their own rules again, and nothing else changes. -/
def safeReleaseEvent (s : State) : State := flipInput .safe s

/-- The event that a conditioned change of an input makes (R15, R17, R20 to R24). -/
def conditionedChange (n : Line) (s : State) : State :=
  match n with
  | .cut => if cutEdgeDue s then cutEdgeEvent s else flipInput .cut s
  | .safe => if s.safe.level then safeAssertionEvent s else safeReleaseEvent s
  | .stand i .spindle => if spindleMarkDue s i then spindleMarkEvent i s else flipInput n s
  | .stand i .tabA =>
    if (s.stand i).selectedTab = .tabA ∧ tabMarkDue s i = true then tabMarkEvent i s else flipInput n s
  | .stand i .tabB =>
    if (s.stand i).selectedTab = .tabB ∧ tabMarkDue s i = true then tabMarkEvent i s else flipInput n s
  | .stand i .indexHome => if homeMarkDue s i then homeMarkEvent i s else flipInput n s
  | .stand i (.brk k) =>
    if webBreakDue s i k then webBreakEvent i k s
    else if breakReleaseDue s i k then breakReleaseEvent i k s
    else flipInput n s

/-! ### Sampling (R6, R15, R23; log entries 8 and 9) -/

/-- One sample of an input's pin: the filter moves on, and the change it may confirm takes place. -/
def sampleInput (s : State) (n : Line) : State :=
  if (s.input n).confirms then conditionedChange n s else putInput n (s.input n).sampled s

/-- The eight inputs of a stand, in the order of R15. -/
def standLines (i : StandNo) : List Line :=
  [.stand i .spindle, .stand i .tabA, .stand i .tabB, .stand i .indexHome, .stand i (.brk 0), .stand i (.brk 1),
    .stand i (.brk 2), .stand i (.brk 3)]

/-- The stand's filters sample at this instant, by the stand's rate (R15). -/
def samplesNow (s : State) (fast slow : Bool) (i : StandNo) : Bool :=
  match (s.stand i).setup.rate with
  | .fast => fast
  | .slow => slow

/-- The samples of one instant: CUT and SAFE at the FAST rate (R6, R23), each stand's inputs at its own rate. -/
def sampleAll (fast slow : Bool) (s : State) : State :=
  let s1 := if fast then [Line.cut, Line.safe].foldl sampleInput s else s
  forStands (fun i s => if samplesNow s fast slow i then (standLines i).foldl sampleInput s else s) s1

end Sys2Proof.Machine
end

