-- ==== Sys2Proof/Machine/OrderRequests.lean ====
section
/-!
DEFINITION. The requests of the ORDER slots (03_reel_records_and_stand_setup.md).
-/
namespace Sys2Proof.Machine

/-- The acceptance of DECLARE RUNNING (R37, R38): the record, reel measurement, the runout check with a current
diameter (R59), and the entry to RUNNING or PREPARED. -/
def declareReel (i : StandNo) (r : RunningReel) (s : State) : State :=
  let s1 := s.modStand i fun d => { d with running := some r, spindle := d.spindle.declared r.current }
  let s2 := if r.current.isSome then runoutCheck i s1 else s1
  enter i (if (s2.stand i).ready.isSome then .prepared else .running) s2

/-- DECLARE RUNNING's own rule (R37). -/
def declareRunningOwner (i : StandNo) (s : State) : Result × State :=
  if s.phase i = .idle then
    let r := s.reelRequest i
    if r.geometryOk then (.accepted, declareReel i r s) else (.refusedRange, s)
  else (.refusedBusy, s)

/-- DECLARE_RUNNING (R37). -/
def execDeclareRunning (i : StandNo) (s : State) : Host.Outcome State Fault Refusal :=
  intake (.order i) 0x10 (declareRunningOwner i) s

/-- The acceptance of LOAD REEL (R39): the record, the entry to PREPARED, and the evaluation of the start. -/
def loadReady (i : StandNo) (r : Reel) (s : State) : State :=
  evaluateStart i (enter i .prepared (s.modStand i fun d => { d with ready := some r }))

/-- LOAD REEL's own rule (R39). -/
def loadReelOwner (i : StandNo) (s : State) : Result × State :=
  match s.phase i with
  | .running =>
    let r := (s.reelRequest i).reel
    if r.loadOk then (.accepted, loadReady i r s) else (.refusedRange, s)
  | .idle => (.refusedNoReel, s)
  | .prepared | .held => (.refusedReelPresent, s)
  | .accelerating | .matching | .armed | .pasting | .cutting | .indexing | .winddown | .faulted => (.refusedBusy, s)

/-- LOAD_REEL (R39). -/
def execLoadReel (i : StandNo) (s : State) : Host.Outcome State Fault Refusal :=
  intake (.order i) 0x11 (loadReelOwner i) s

/-- CANCEL REEL's own rule (R40). -/
def cancelReelOwner (i : StandNo) (s : State) : Result × State :=
  match s.phase i with
  | .prepared | .held => (.accepted, enter i .running (s.modStand i fun d => { d with ready := none }))
  | .idle | .running => (.refusedNoReel, s)
  | .accelerating | .matching | .armed | .pasting | .cutting | .indexing | .winddown | .faulted => (.refusedBusy, s)

/-- CANCEL_REEL (R40). -/
def execCancelReel (i : StandNo) (s : State) : Host.Outcome State Fault Refusal :=
  intake (.order i) 0x12 (cancelReelOwner i) s

/-- The merge of STAND SETUP with its hand-overs (R45, R46): a changed filter rate restarts the filters' counts (R16),
a changed break enable recomputes the armed flag (R22). -/
def Stand.mergeSetup (r : SetupRequest) (d : Stand) : Stand :=
  let u := r.merge d.setup
  let d1 := { d with setup := u }
  let d2 := if u.rate = d.setup.rate then d1
    else { d1 with io := { d1.io with inputs := d1.io.inputs.map Input.restart } }
  if u.breakEnable = d.setup.breakEnable then d2
  else { d2 with io := { d2.io with breakArmed := !d2.anyBreakAsserted } }

/-- The states in which STAND SETUP is judged further, and whether the edge-order rule applies there (R42). -/
def setupState : Phase → Option Bool
  | .idle => some false
  | .running | .prepared | .held | .faulted => some true
  | .accelerating | .matching | .armed | .pasting | .cutting | .indexing | .winddown => none

/-- STAND SETUP's own rule (R42 to R46). -/
def standSetupOwner (i : StandNo) (s : State) : Result × State :=
  match setupState (s.phase i) with
  | none => (.refusedBusy, s)
  | some edgeRule =>
    let r := s.setupRequest i
    if r.inRange = false then (.refusedRange, s)
    else if edgeRule ∧ r.edgeOrderFails (s.stand i).setup = true then (.refusedEdgeOrder, s)
    else (acceptedWith r.clamps, s.modStand i fun d => d.mergeSetup r)

/-- STAND_SETUP (R42). -/
def execStandSetup (i : StandNo) (s : State) : Host.Outcome State Fault Refusal :=
  intake (.order i) 0x13 (standSetupOwner i) s

end Sys2Proof.Machine
end

