-- ==== Sys2Proof/Machine/PressEvents.lean ====
section
/-!
DEFINITION. The meanings of the press's events: the encoder pair, CUT, SAFE and the stands' inputs.
-/
namespace Sys2Proof.Machine

/-! ### Quadrature (R1, R2, R5) -/

/-- The place of a pair (A, B) in the forward sequence of section 1.1. -/
def quadraturePlace (a b : Bool) : Nat :=
  match a, b with
  | false, false => 0
  | true, false => 1
  | true, true => 2
  | false, true => 3

/-- How a pair differs from the reference pair (R1). -/
inductive Movement where
  | stay
  | forward
  | backward
  | illegal
deriving DecidableEq, Repr

/-- The movement from a pair to a pair (R1). -/
def movement (a b a' b' : Bool) : Movement :=
  match (quadraturePlace a' b' + 4 - quadraturePlace a b) % 4 with
  | 0 => .stay
  | 1 => .forward
  | 2 => .illegal
  | _ => .backward

/-- The consequences of a change of the line count, in the order of log entry 10: the synthetic threshold (R9), the
stall checks (R57), the last nip (R136), the tracking entries (R145) and the knife distances (R126). -/
def lineCountChanged (forward : Bool) (s : State) : State :=
  forStands checkKnife (ageEntries (ageLastNip forward (forStands stallCheck (examineThreshold s))))

/-- One step of the line count (R1). -/
def stepLine (forward : Bool) (s : State) : State :=
  lineCountChanged forward
    (s.modLine fun l => { l with lineCount := if forward then l.lineCount + 1 else l.lineCount - 1 })

/-- An illegal transition (R2), and the encoder fault it may raise (R5). -/
def illegalTransition (s : State) : State :=
  let s1 := raise .encError (s.modLine fun l =>
    { l with illegalTotal := satInc max32 l.illegalTotal, windowCount := satInc max16 l.windowCount })
  if 16 ≤ s1.line.windowCount ∧ s1.line.encoderFault = false then
    forStands lineFaultConsequence (raise .encFault (s1.modLine fun l => { l with encoderFault := true }))
  else s1

/-- A transition of the sampled pair (R1): the new pair becomes the reference, and the movement has its outcome. -/
def quadratureEvent (a b : Bool) (s : State) : State :=
  let moved := movement s.line.refA s.line.refB a b
  let s1 := s.modLine fun l => { l with refA := a, refB := b }
  match moved with
  | .stay => s1
  | .forward => stepLine true s1
  | .backward => stepLine false s1
  | .illegal => illegalTransition s1

/-- QUADRATURE_TRANSITION (R1): a transition is a change of the pair. -/
def execQuadratureTransition (a b : Bool) (s : State) : Host.Outcome State Fault Refusal :=
  takesPlace (a != s.line.refA || b != s.line.refB) (quadratureEvent a b) s

/-- CUT_EDGE (R7). -/
def execCutEdge (s : State) : Host.Outcome State Fault Refusal := takesPlace (cutEdgeDue s) cutEdgeEvent s

/-- SPINDLE_MARK (R53). -/
def execSpindleMark (i : StandNo) (s : State) : Host.Outcome State Fault Refusal :=
  takesPlace (spindleMarkDue s i) (spindleMarkEvent i) s

/-- TAB_MARK (R66). -/
def execTabMark (i : StandNo) (s : State) : Host.Outcome State Fault Refusal :=
  takesPlace (tabMarkDue s i) (tabMarkEvent i) s

/-- INDEX_HOME_MARK (R86). -/
def execIndexHomeMark (i : StandNo) (s : State) : Host.Outcome State Fault Refusal :=
  takesPlace (homeMarkDue s i) (homeMarkEvent i) s

/-- WEB_BREAK (R21). -/
def execWebBreak (i : StandNo) (k : Fin 4) (s : State) : Host.Outcome State Fault Refusal :=
  takesPlace (webBreakDue s i k) (webBreakEvent i k) s

/-- BREAK_RELEASE (R22). -/
def execBreakRelease (i : StandNo) (k : Fin 4) (s : State) : Host.Outcome State Fault Refusal :=
  takesPlace (breakReleaseDue s i k) (breakReleaseEvent i k) s

/-- SAFE_ASSERTION (R23). -/
def execSafeAssertion (s : State) : Host.Outcome State Fault Refusal := takesPlace s.safe.level safeAssertionEvent s

/-- SAFE_RELEASE (R24). -/
def execSafeRelease (s : State) : Host.Outcome State Fault Refusal := takesPlace (!s.safe.level) safeReleaseEvent s

/-- The filter that a changed input names. -/
def changedLine : ChangedInput → Line
  | .cut => .cut
  | .stand i n => .stand i n

/-- INPUT_CONDITIONED_CHANGE (R15): only the conditioned level changes. -/
def execInputConditionedChange (n : ChangedInput) (s : State) : Host.Outcome State Fault Refusal :=
  takesPlace (levelOnly s n) (flipInput (changedLine n)) s

end Sys2Proof.Machine
end

