-- ==== Sys2Proof/Machine/TimedEvents.lean ====
section
/-!
DEFINITION. The meanings of the timed events: each takes place when its own time has been reached on the µs clock
(section 5.2), and what an idle step of the part does with time (log entry 2).
-/
namespace Sys2Proof.Machine

/-! ### Speed samples and the encoder fault window (R3 to R5) -/

/-- The next-sample time has been reached (R3). -/
def sampleDue (s : State) : Bool := atOrAfter s.line.usClock s.line.nextSample

/-- The travel since the previous sample, clamped (R4). -/
def LineRef.travel (l : LineRef) : Int := clampInt (-4000) 4000 (l.lineCount - l.prevCount).toInt

/-- The speed-sample counter after a sample (R4). -/
def counterAfter (n : Nat) : Nat := if n < 3999999999 then n + 1 else 0

/-- The line reference's part of a speed sample (R3, R4). -/
def LineRef.sample (l : LineRef) : LineRef :=
  let counter := counterAfter l.sampleCounter
  { l with
    v := l.travel
    vLine := l.travel.toNat
    prevCount := l.lineCount
    sampleCounter := counter
    nextSample := l.nextSample + 10000
    windowEndDue := l.windowEndDue || counter % 100 == 0 }

/-- A speed sample (R4): V first, then the stands, the arbiter and the line status block, in the order of log entry
11. -/
def speedSampleEvent (s : State) : State :=
  let s1 := evaluate (forStands sampleStand (s.modLine LineRef.sample))
  if s1.line.sampleCounter % 10 = 0 then touchLine s1 else s1

/-- SPEED_SAMPLE (R4). -/
def execSpeedSample (s : State) : Host.Outcome State Fault Refusal := takesPlace (sampleDue s) speedSampleEvent s

/-- The end of an encoder fault window (R5). -/
def windowEndEvent (s : State) : State :=
  s.modLine fun l =>
    { l with
      encoderFault := if l.windowCount = 0 then false else l.encoderFault
      windowCount := 0
      windowEndDue := false }

/-- ENCODER_FAULT_WINDOW_END (R5). -/
def execEncoderFaultWindowEnd (s : State) : Host.Outcome State Fault Refusal :=
  takesPlace s.line.windowEndDue windowEndEvent s

/-! ### DRIVE REF (R26) -/

/-- The stand's next-period time has been reached (R26). -/
def periodDue (s : State) (i : StandNo) : Bool := atOrAfter s.line.usClock (s.stand i).io.nextPeriod

/-- A PWM period starts (R26). -/
def periodStartEvent (i : StandNo) (s : State) : State :=
  s.modStand i fun d =>
    { d with io := { d.io with
      duty := d.io.pendingDuty
      driveOut := decide (0 < d.io.pendingDuty)
      nextPeriod := d.io.nextPeriod + 4000 } }

/-- DRIVE_REF_PERIOD_START (R26). -/
def execDriveRefPeriodStart (i : StandNo) (s : State) : Host.Outcome State Fault Refusal :=
  takesPlace (periodDue s i) (periodStartEvent i) s

/-- The output is active and its active time within the period has elapsed (R26): duty 4000 has none, it keeps the
output active for the whole period. -/
def activeEndDue (s : State) (i : StandNo) : Bool :=
  let d := s.stand i
  d.io.driveOut && decide (d.io.duty < 4000)
    && atOrAfter s.line.usClock (d.io.nextPeriod - 4000 + BitVec.ofNat 32 d.io.duty)

/-- The DRIVE REF output goes inactive for the rest of the period (R26). -/
def activeEndEvent (i : StandNo) (s : State) : State :=
  s.modStand i fun d => { d with io := { d.io with driveOut := false } }

/-- DRIVE_REF_ACTIVE_END (R26). -/
def execDriveRefActiveEnd (i : StandNo) (s : State) : Host.Outcome State Fault Refusal :=
  takesPlace (activeEndDue s i) (activeEndEvent i) s

/-! ### The deadlines of a stand -/

/-- The jog hold deadline has been reached (R31). -/
def jogDue (s : State) (i : StandNo) : Bool := reached s.line.usClock (s.stand i).io.jogDeadline

/-- The jog hold ends at its deadline, and a PREPARED stand evaluates its start (R31, R76). -/
def jogEndEvent (i : StandNo) (s : State) : State :=
  evaluateStart i (s.modStand i fun d => { d with io := { d.io with jogDeadline := none } })

/-- JOG_HOLD_DEADLINE (R31). -/
def execJogHoldDeadline (i : StandNo) (s : State) : Host.Outcome State Fault Refusal :=
  takesPlace (jogDue s i) (jogEndEvent i) s

/-- The tab deadline has been reached in MATCHING or ARMED (R69). -/
def tabDue (s : State) (i : StandNo) : Bool :=
  (s.phase i == .matching || s.phase i == .armed) && reached s.line.usClock (s.stand i).tab.deadline

/-- TAB_DEADLINE (R69). -/
def execTabDeadline (i : StandNo) (s : State) : Host.Outcome State Fault Refusal :=
  takesPlace (tabDue s i) (markLost i) s

/-- The match deadline has been reached in MATCHING (R82). -/
def matchDue (s : State) (i : StandNo) : Bool :=
  s.phase i == .matching && reached s.line.usClock (s.stand i).seq.matchDeadline

/-- MATCH_DEADLINE (R82). -/
def execMatchDeadline (i : StandNo) (s : State) : Host.Outcome State Fault Refusal :=
  takesPlace (matchDue s i) (abortAttempt i .matchTimeout .held) s

/-- FIRE_TIME (R121). -/
def execFireTime (i : StandNo) (s : State) : Host.Outcome State Fault Refusal :=
  takesPlace (fireDue s i) (fireEvent i) s

/-- NIP (R124). -/
def execNip (i : StandNo) (s : State) : Host.Outcome State Fault Refusal := takesPlace (nipDue s i) (nipEvent i) s

/-- The dwell end has been reached with the one-shot ACTIVE and the nip made (R122). -/
def dwellDue (s : State) (i : StandNo) : Bool :=
  let d := s.stand i
  d.seq.phase == .cutting && d.paste.oneShot == .active && reached s.line.usClock d.paste.dwellEnd

/-- DWELL_END (R122): the one-shot returns to IDLE. -/
def execDwellEnd (i : StandNo) (s : State) : Host.Outcome State Fault Refusal :=
  takesPlace (dwellDue s i) (cancelPaste i) s

/-- The knife-late deadline has been reached with the knife in WAIT (R127). -/
def knifeLateDue (s : State) (i : StandNo) : Bool :=
  let d := s.stand i
  d.seq.phase == .cutting && d.paste.knife == .wait && reached s.line.usClock d.seq.attempt.knifeLate

/-- The knife is fired by its deadline (R127). -/
def knifeLateEvent (i : StandNo) (s : State) : State :=
  startKnife i (flagKnifeLate i (s.modStand i fun d => { d with paste := { d.paste with knifeLateFlag := true } }))

/-- KNIFE_LATE_DEADLINE (R127). -/
def execKnifeLateDeadline (i : StandNo) (s : State) : Host.Outcome State Fault Refusal :=
  takesPlace (knifeLateDue s i) (knifeLateEvent i) s

/-- The knife end time has been reached with the knife ACTIVE (R129). -/
def knifeEndDue (s : State) (i : StandNo) : Bool :=
  let d := s.stand i
  d.seq.phase == .cutting && d.paste.knife == .active && reached s.line.usClock d.paste.knifeEnd

/-- The end of the knife pulse (R129): the knife returns to IDLE and the stand enters INDEXING. -/
def knifeEndEvent (i : StandNo) (s : State) : State :=
  enter i .indexing (s.modStand i fun d => { d with paste := { d.paste with knife := .idle, knifeEnd := none } })

/-- KNIFE_END (R129). -/
def execKnifeEnd (i : StandNo) (s : State) : Host.Outcome State Fault Refusal :=
  takesPlace (knifeEndDue s i) (knifeEndEvent i) s

/-- The index deadline has been reached in INDEXING (R87). -/
def indexDue (s : State) (i : StandNo) : Bool :=
  s.phase i == .indexing && reached s.line.usClock (s.stand i).seq.indexDeadline

/-- INDEX_DEADLINE (R87). -/
def execIndexDeadline (i : StandNo) (s : State) : Host.Outcome State Fault Refusal :=
  takesPlace (indexDue s i) (enterFaulted i .indexTimeout) s

/-! ### Time on an empty queue (log entry 2) -/

/-- The timed events of stand i, each with whether it is due. -/
def standDue (s : State) (i : StandNo) : List (Bool × Instr) :=
  [ (jogDue s i, .jogHoldDeadline i), (tabDue s i, .tabDeadline i), (matchDue s i, .matchDeadline i),
    (fireDue s i, .fireTime i), (nipDue s i, .nip i), (dwellDue s i, .dwellEnd i),
    (knifeLateDue s i, .knifeLateDeadline i), (knifeEndDue s i, .knifeEnd i), (indexDue s i, .indexDeadline i),
    (periodDue s i, .driveRefPeriodStart i), (activeEndDue s i, .driveRefActiveEnd i) ]

/-- The first timed event that is due, in the fixed order of log entry 2: the speed sample, the end of the encoder
fault window, then the events of stands 0 to 7. None while a reset lasts (R188). -/
def dueCommand (s : State) : Option Instr :=
  if s.host.resetLow then none
  else
    ((((sampleDue s, Instr.speedSample) :: (s.line.windowEndDue, Instr.encoderFaultWindowEnd) ::
      standNumbers.flatMap (standDue s)).find? fun x => x.1)).map fun x => x.2

/-- One µs of the part (R3): the µs clock advances by one, and the filters whose sample instant it is sample their
pins (R15; log entry 8). While a reset lasts nothing is counted (R14). -/
def tick (s : State) : State :=
  if s.host.resetLow then s
  else
    let fast := decide (1 ≤ s.phases.fast)
    let slow := decide (49 ≤ s.phases.slow)
    let s1 := { s with phases := ⟨if fast then 0 else s.phases.fast + 1, if slow then 0 else s.phases.slow + 1⟩ }
    let s2 := s1.modLine fun l => { l with usClock := l.usClock + 1 }
    commit s (sampleAll fast slow s2)

end Sys2Proof.Machine
end

