-- ==== Sys2Proof/Machine/Dispatch.lean ====
section
/-!
DEFINITION. The meaning of every command: one arm for each constructor of Instr.
-/
namespace Sys2Proof.Machine

def exec (c : Instr) (s : State) : Host.Outcome State Fault Refusal :=
  match c with
  | .quadratureTransition a b => Sys2Proof.Machine.execQuadratureTransition a b s
  | .speedSample => Sys2Proof.Machine.execSpeedSample s
  | .encoderFaultWindowEnd => Sys2Proof.Machine.execEncoderFaultWindowEnd s
  | .cutEdge => Sys2Proof.Machine.execCutEdge s
  | .spindleMark i => Sys2Proof.Machine.execSpindleMark i s
  | .tabMark i => Sys2Proof.Machine.execTabMark i s
  | .indexHomeMark i => Sys2Proof.Machine.execIndexHomeMark i s
  | .webBreak i k => Sys2Proof.Machine.execWebBreak i k s
  | .breakRelease i k => Sys2Proof.Machine.execBreakRelease i k s
  | .safeAssertion => Sys2Proof.Machine.execSafeAssertion s
  | .safeRelease => Sys2Proof.Machine.execSafeRelease s
  | .driveRefPeriodStart i => Sys2Proof.Machine.execDriveRefPeriodStart i s
  | .jogHoldDeadline i => Sys2Proof.Machine.execJogHoldDeadline i s
  | .tabDeadline i => Sys2Proof.Machine.execTabDeadline i s
  | .matchDeadline i => Sys2Proof.Machine.execMatchDeadline i s
  | .fireTime i => Sys2Proof.Machine.execFireTime i s
  | .nip i => Sys2Proof.Machine.execNip i s
  | .dwellEnd i => Sys2Proof.Machine.execDwellEnd i s
  | .knifeLateDeadline i => Sys2Proof.Machine.execKnifeLateDeadline i s
  | .knifeEnd i => Sys2Proof.Machine.execKnifeEnd i s
  | .indexDeadline i => Sys2Proof.Machine.execIndexDeadline i s
  | .lineSetup => Sys2Proof.Machine.execLineSetup s
  | .gateOverride => Sys2Proof.Machine.execGateOverride s
  | .freeze => Sys2Proof.Machine.execFreeze s
  | .clearTracking => Sys2Proof.Machine.execClearTracking s
  | .declareRunning i => Sys2Proof.Machine.execDeclareRunning i s
  | .loadReel i => Sys2Proof.Machine.execLoadReel i s
  | .cancelReel i => Sys2Proof.Machine.execCancelReel i s
  | .standSetup i => Sys2Proof.Machine.execStandSetup i s
  | .spliceNow i => Sys2Proof.Machine.execSpliceNow i s
  | .abort i => Sys2Proof.Machine.execAbort i s
  | .resume i => Sys2Proof.Machine.execResume i s
  | .standReset i => Sys2Proof.Machine.execStandReset i s
  | .jogIndex i => Sys2Proof.Machine.execJogIndex i s
  | .reviseTiming i => Sys2Proof.Machine.execReviseTiming i s
  | .setPhaseLines i => Sys2Proof.Machine.execSetPhaseLines i s
  | .recordsReturned => Sys2Proof.Machine.execRecordsReturned s
  | .attentionWrite value => Sys2Proof.Machine.execAttentionWrite value s
  | .noticeWrite value => Sys2Proof.Machine.execNoticeWrite value s
  | .noticeEnableWrite value => Sys2Proof.Machine.execNoticeEnableWrite value s
  | .noticeLevelWrite value => Sys2Proof.Machine.execNoticeLevelWrite value s
  | .undefinedRegisterWrite offset value => Sys2Proof.Machine.execUndefinedRegisterWrite offset value s
  | .deviceReset source => Sys2Proof.Machine.execDeviceReset source s
  | .resetRelease pins => Sys2Proof.Machine.execResetRelease pins s
  | .initialisationEnd => Sys2Proof.Machine.execInitialisationEnd s
  | .inputConditionedChange input => Sys2Proof.Machine.execInputConditionedChange input s
  | .driveRefActiveEnd i => Sys2Proof.Machine.execDriveRefActiveEnd i s
  | .hostTableWrite offset value => Sys2Proof.Machine.execHostTableWrite offset value s
  | .slotIntakeNotPosted slot => Sys2Proof.Machine.execSlotIntakeNotPosted slot s
  | .refusedKind slot => Sys2Proof.Machine.execRefusedKind slot s
end Sys2Proof.Machine
end

