-- ==== Sys2Proof/Machine/Step.lean ====
section
/-!
DEFINITION. One step of the part: the command at the front of the queue, or, on an empty queue, the part's own time.
-/
namespace Sys2Proof.Machine

/-- A step on an empty queue (log entry 2): the first timed event that is due takes place, and where none is due the
µs clock advances by one. -/
def idle (s : State) : Host.Outcome State Fault Refusal :=
  match dueCommand s with
  | some c => exec c s
  | none => .next (tick s)

/-- One step: the command at the front of the queue is taken, and runs on the state with the queue's rest. -/
def step (s : State) : Host.Outcome State Fault Refusal :=
  match s.pending with
  | c :: rest => exec c { s with pending := rest }
  | [] => idle s

/-- The state with the command that a word spells at the front of its queue; unchanged where the word spells none, as
every word does (log entry 21). -/
def State.withFetchWord (s : State) (nbits w : Nat) : State :=
  match decodeTableWord nbits w with
  | some c => { s with pending := c :: s.pending }
  | none => s

end Sys2Proof.Machine
end

