-- ==== Sys2Proof/Safety.lean ====
section
/-!
DEFINITION. What counts as a safe part, in the terms that claims use: the laws of the device that the spec's chapters
state, and the words claims say frames with (which stand, which block and which bytes a command may change).
-/
namespace Sys2Proof

/-- The slot and the kind code of a request's command (R178, section 11.6). -/
def Instr.request : Instr → Option (Slot × Nat)
  | .lineSetup => some (.line, 0x01)
  | .gateOverride => some (.line, 0x02)
  | .freeze => some (.line, 0x02)
  | .clearTracking => some (.line, 0x03)
  | .declareRunning i => some (.order i, 0x10)
  | .loadReel i => some (.order i, 0x11)
  | .cancelReel i => some (.order i, 0x12)
  | .standSetup i => some (.order i, 0x13)
  | .spliceNow i => some (.command i, 0x20)
  | .abort i => some (.command i, 0x21)
  | .resume i => some (.command i, 0x22)
  | .standReset i => some (.command i, 0x23)
  | .jogIndex i => some (.command i, 0x24)
  | .reviseTiming i => some (.command i, 0x25)
  | .setPhaseLines i => some (.command i, 0x26)
  | .quadratureTransition .. | .speedSample | .encoderFaultWindowEnd | .cutEdge | .spindleMark _ | .tabMark _
  | .indexHomeMark _ | .webBreak .. | .breakRelease .. | .safeAssertion | .safeRelease | .driveRefPeriodStart _
  | .jogHoldDeadline _ | .tabDeadline _ | .matchDeadline _ | .fireTime _ | .nip _ | .dwellEnd _
  | .knifeLateDeadline _ | .knifeEnd _ | .indexDeadline _ | .recordsReturned | .attentionWrite _ | .noticeWrite _
  | .noticeEnableWrite _ | .noticeLevelWrite _ | .undefinedRegisterWrite .. | .deviceReset _ | .resetRelease _
  | .initialisationEnd | .inputConditionedChange _ | .driveRefActiveEnd _ | .hostTableWrite .. | .slotIntakeNotPosted _
  | .refusedKind _ => none

end Sys2Proof

namespace Sys2Proof.Machine

/-! ### The laws of the device -/

/-- A waiting state: the expiring reel runs or no reel is declared, and the drive reference is 0 (section 5.2). -/
def Phase.isWaiting (p : Phase) : Prop := p = .idle ∨ p = .running ∨ p = .prepared ∨ p = .held

/-- The states whose drive reference is 0 by the law of R99. -/
def Phase.isRest (p : Phase) : Prop := p.isWaiting ∨ p = .indexing ∨ p = .faulted

/-- The attempt states (chapter 5): the new reel is driven and the web is not touched yet. -/
def Phase.isAttempt (p : Phase) : Prop := p = .accelerating ∨ p = .matching ∨ p = .armed

/-- The states from PREPARED through WINDDOWN in the state list of R72. -/
def Phase.needsReady (p : Phase) : Prop :=
  p = .prepared ∨ p = .held ∨ p = .accelerating ∨ p = .matching ∨ p = .armed ∨ p = .pasting ∨ p = .cutting ∨
    p = .indexing ∨ p = .winddown

/-- The law of the clearance (R134, R139): a stand holds the clearance exactly in ARMED and in PASTING, and its request
is in the set exactly in MATCHING with a match count of 3; an attempt enters MATCHING with a match count of 0. -/
def ClearanceLaw (s : State) : Prop :=
  ∀ i : StandNo,
    (s.arbiter.holder = some i ↔ s.phase i = .armed ∨ s.phase i = .pasting) ∧
    (s.arbiter.requested i = true ↔ s.phase i = .matching ∧ (s.stand i).speed.matchCount = 3) ∧
    (s.phase i = .accelerating → (s.stand i).speed.matchCount = 0)

/-- The law of the reel records (R72), with the two states that have a record absent: IDLE has no running record,
RUNNING no ready record (chapter 5). -/
def ReelLaw (s : State) : Prop :=
  ∀ i : StandNo,
    ((s.stand i).running.isSome = true ↔ s.phase i ≠ .idle) ∧
    ((s.phase i).needsReady → (s.stand i).ready.isSome = true) ∧
    (s.phase i = .running → (s.stand i).ready = none)

/-- The law of the drive reference (R99), of its pending value (R99, R26) and of SAFE (R24, R111). -/
def DriveLaw (s : State) : Prop :=
  ∀ i : StandNo,
    (s.stand i).speed.ref ≤ 4000 ∧ (s.stand i).io.pendingDuty = (s.stand i).speed.ref ∧ (s.stand i).io.duty ≤ 4000 ∧
    ((s.phase i).isRest → (s.stand i).speed.ref = 0) ∧
    (s.phase i = .cutting → (s.stand i).paste.knife = .active → (s.stand i).speed.ref = 0) ∧
    (s.phase i = .faulted → (s.stand i).io.duty = 0 ∧ (s.stand i).io.driveOut = false) ∧
    (s.safeAsserted = true →
      (s.stand i).speed.ref = 0 ∧ (s.stand i).io.duty = 0 ∧ (s.stand i).io.driveOut = false)

/-- A reel's fields lie in the ranges of R34. -/
def Reel.inRange (r : Reel) : Prop :=
  200 ≤ r.dFull ∧ r.dFull ≤ 13000 ∧ 500 ≤ r.core ∧ r.core ≤ 3000 ∧ 20 ≤ r.caliper ∧ r.caliper ≤ 200 ∧
    r.core + 40 ≤ r.splice ∧ r.splice + 100 ≤ r.dFull

/-- A running record's fields lie in the ranges of R34, its current diameter with them. -/
def RunningReel.inRange (r : RunningReel) : Prop :=
  r.reel.inRange ∧ ∀ c, r.current = some c → r.reel.core ≤ c ∧ c ≤ r.reel.dFull

/-- The line parameters lie in the ranges of section 1.6. -/
def LineParams.inRange (p : LineParams) : Prop :=
  1000 ≤ p.cutoff ∧ p.cutoff ≤ 20000 ∧ 1 ≤ p.gateDelay ∧ p.gateDelay ≤ 64 ∧ p.preMargin ≤ 50000 ∧
    p.postMargin ≤ 50000 ∧ p.clearance ≤ 2000000 ∧ 10 ≤ p.vMin ∧ p.vMin ≤ 1000

/-- The numbers of the setup set lie in the ranges of R41. -/
def Setup.inRange (u : Setup) : Prop :=
  u.pathLength ≤ 2000000 ∧ u.zoneLength ≤ 20000 ∧ u.theta ≤ 4095 ∧ u.tAct ≤ 500000 ∧ u.dwell ≤ 200000 ∧
    u.knifeDelay ≤ 200000 ∧ 1000 ≤ u.knifeWidth ∧ u.knifeWidth ≤ 200000 ∧ 1000 ≤ u.tAcc ∧ u.tAcc ≤ 60000 ∧
    u.tSettle ≤ 30000 ∧ 1 ≤ u.window ∧ u.window ≤ 50 ∧ -20 ≤ u.offset ∧ u.offset ≤ 20 ∧ 2000 ≤ u.tMatch ∧
    u.tMatch ≤ 60000 ∧ u.patRun ≤ 7 ∧ u.patAccel ≤ 7 ∧ u.patSplice ≤ 7 ∧ u.patIndex ≤ 7

/-- The staged values lie in the ranges of R41. -/
def StagedTiming.inRange (g : StagedTiming) : Prop :=
  g.theta.getD 0 ≤ 4095 ∧ g.tAct.getD 0 ≤ 500000 ∧ g.dwell.getD 0 ≤ 200000 ∧ g.knifeDelay.getD 0 ≤ 200000 ∧
    1000 ≤ g.knifeWidth.getD 1000 ∧ g.knifeWidth.getD 1000 ≤ 200000

/-- The law of the bounded quantities (R106), with the ranges that the requests enforce (section 1.6, R34, R41) and
the sizes of the history (R52) and of the match count (R98). -/
def BoundsLaw (s : State) : Prop :=
  s.line.params.inRange ∧
  ∀ i : StandNo,
    (s.stand i).setup.inRange ∧ (s.stand i).staged.inRange ∧
    (∀ r, (s.stand i).running = some r → r.inRange) ∧ (∀ r, (s.stand i).ready = some r → r.inRange) ∧
    (s.stand i).spindle.estimate ≤ 13000 ∧ (s.stand i).spindle.history.length ≤ 4 ∧
    -100 ≤ (s.stand i).speed.trim ∧ (s.stand i).speed.trim ≤ 100 ∧ (s.stand i).speed.matchCount ≤ 3 ∧
    (∀ x, (s.stand i).speed.lastDev = some x → -999 ≤ x ∧ x ≤ 999)

/-- A deadline belongs to the state it was set for (R73); so do the WINDDOWN target (R72), the tab deadline (R69) and
the jog hold (R31). -/
def DeadlineLaw (s : State) : Prop :=
  ∀ i : StandNo,
    ((s.stand i).seq.matchDeadline.isSome = true ↔ s.phase i = .matching) ∧
    ((s.stand i).seq.indexDeadline.isSome = true ↔ s.phase i = .indexing) ∧
    ((s.stand i).seq.target.isSome = true ↔ s.phase i = .winddown) ∧
    ((s.stand i).tab.deadline.isSome = true → s.phase i = .matching ∨ s.phase i = .armed) ∧
    ((s.stand i).io.jogDeadline.isSome = true → (s.phase i).isWaiting ∨ s.phase i = .faulted)

/-- The timers of paste timing run in their own states alone (R125, R114): the one-shot is out of IDLE only in PASTING,
where it always is, and in CUTTING; the knife is out of IDLE exactly in CUTTING. -/
def PasteLaw (s : State) : Prop :=
  ∀ i : StandNo,
    (s.phase i = .pasting → (s.stand i).paste.oneShot ≠ .idle) ∧
    ((s.stand i).paste.oneShot = .delay → s.phase i = .pasting) ∧
    ((s.stand i).paste.oneShot = .active → s.phase i = .pasting ∨ s.phase i = .cutting) ∧
    ((s.stand i).paste.dwellEnd.isSome = true ↔ (s.stand i).paste.oneShot ≠ .idle) ∧
    ((s.stand i).paste.knife ≠ .idle ↔ s.phase i = .cutting) ∧
    ((s.stand i).paste.knifeEnd.isSome = true ↔ (s.stand i).paste.knife = .active)

/-- Two neighbours in a run queue have different fates (R148). -/
def fatesAlternate : List Run → Prop
  | [] => True
  | [_] => True
  | a :: b :: rest => a.fate ≠ b.fate ∧ fatesAlternate (b :: rest)

/-- The law of the run queue (R148). -/
def QueueLaw (s : State) : Prop :=
  (1 ≤ s.line.params.gateDelay ∧ s.line.params.gateDelay ≤ 64) ∧
  s.tracker.queue.length ≤ 32 ∧ (∀ r ∈ s.tracker.queue, 1 ≤ r.count ∧ r.count ≤ 128) ∧
  fatesAlternate s.tracker.queue ∧ queueSum s.tracker.queue ≤ s.line.params.gateDelay

/-- The law of the tracking list (R143), without its order: at most 16 entries, no two with the same serial. -/
def TrackingLaw (s : State) : Prop :=
  s.tracker.entries.length ≤ 16 ∧ (s.tracker.entries.map fun e => e.serial).Nodup

/-- Zone starts in the order of R143, as seen from a line count that none of them lies 2^31 or more past. -/
def zonesOrdered (origin : Word) (es : List TrackEntry) : Prop :=
  es.Pairwise fun x y => (x.zoneStart - origin).toNat ≤ (y.zoneStart - origin).toNat

/-- The law of the gate output (R152): DIVERT under FAULT and while the queue holds fewer than G copies, unless the gate is
FROZEN or forced to pass and the cut status is not FAULT; with it, the frozen level is present in FROZEN alone (R141). -/
def GateLaw (s : State) : Prop :=
  (s.tracker.frozenLevel.isSome = true ↔ s.tracker.mode = .frozen) ∧
  (s.tracker.lastStatus = .fault ∨ queueSum s.tracker.queue < s.line.params.gateDelay →
    s.tracker.output = .divert ∨
      (s.tracker.mode = .frozen ∨ s.tracker.mode = .forcePass) ∧ s.tracker.lastStatus ≠ .fault)

/-- The creation order holds each stand with a pending record once (R163), and the next serial is one of 1 to 65,535
(R164). -/
def RecordLaw (s : State) : Prop :=
  s.records.order.Nodup ∧ (∀ i : StandNo, i ∈ s.records.order ↔ (s.stand i).records.pending.isSome = true) ∧
    1 ≤ s.records.nextSerial ∧ s.records.nextSerial ≤ 65535

/-- The break group is armed exactly while no enabled BREAK input is asserted (R22). -/
def BreakLaw (s : State) : Prop := ∀ i : StandNo, (s.stand i).io.breakArmed = !(s.stand i).anyBreakAsserted

/-! ### The values after device reset -/

/-- Every value that the reset tables of the chapters give (R14, R32, R51, R71, R96, R112, R132, R133, R160, R163, R188),
but for the levels of the inputs, the notices and INIT's end. -/
def HasResetValues (t : State) : Prop :=
  (t.line.lineCount = 0 ∧ t.line.illegalTotal = 0 ∧ t.line.windowCount = 0 ∧ t.line.encoderFault = false ∧
    t.line.usClock = 0 ∧ t.line.nextSample = 10000 ∧ t.line.sampleCounter = 0 ∧ t.line.prevCount = 0 ∧ t.line.v = 0 ∧
    t.line.vLine = 0 ∧ t.line.boundaryRef = none ∧ t.line.lastKind = none ∧ t.line.copyNumber = 0 ∧
    t.line.cutStatus = .normal ∧ t.line.syntheticRun = 0 ∧ t.line.spuriousCuts = 0 ∧
    t.line.params = ⟨5780, 8, 2000, 2000, 200000, 300⟩) ∧
  (∀ i : StandNo,
    (t.stand i).io.breakArmed = true ∧ (t.stand i).io.manualValue = 0 ∧ (t.stand i).io.jogDeadline = none ∧
    (t.stand i).io.duty = 0 ∧ (t.stand i).io.pendingDuty = 0 ∧ (t.stand i).io.nextPeriod = 0 ∧
    (t.stand i).running = none ∧ (t.stand i).ready = none ∧ (t.stand i).setup = Setup.defaults ∧
    (t.stand i).staged = ⟨none, none, none, none, none⟩ ∧
    (t.stand i).spindle = ⟨none, none, [], 0, .none, 0, false, 0, 0⟩ ∧
    (t.stand i).tab = ⟨none, none, none, none, 0, none, 0, 0⟩ ∧
    (t.stand i).seq = ⟨.idle, 0, none, none, none, none, ⟨none, none, none, none, none⟩⟩ ∧
    (t.stand i).speed = ⟨0, 0, 0, 0, none, 0, false, none⟩ ∧
    (t.stand i).paste = ⟨.idle, none, .idle, none, false⟩ ∧ (t.stand i).records = ⟨none, 0, none, 0⟩ ∧
    (t.stand i).updateCount = 0 ∧ (t.stand i).imageCount = 0) ∧
  (t.arbiter.holder = none ∧ t.arbiter.lastNip = 0 ∧ t.arbiter.lastNipValid = false ∧
    (∀ i : StandNo, t.arbiter.requested i = false) ∧ t.arbiter.grants = 0 ∧ t.arbiter.releases = 0) ∧
  t.tracker = ⟨[], [], .normal, none, none, .normal, .divert, 0, 0, 0⟩ ∧
  t.records.nextSerial = 1 ∧ t.records.order = [] ∧
  t.host.attention = 0 ∧ t.host.enable = 0 ∧ t.host.level = 0x00BD00 ∧ t.host.init = true ∧ t.host.lineUpdates = 0

/-- A filter at the end of a reset (R14, R32): the conditioned level is the first sample, and nothing is counted. -/
def FirstSample (pin : Bool) (x : Input) : Prop := x.level = pin ∧ x.last = pin ∧ x.count = 0

/-! ### The bytes of the table area (R178) -/

/-- The four bytes of a slot's header. -/
def headerBytes (slot : Slot) (a : Nat) : Prop := slotBase slot ≤ a ∧ a < slotBase slot + 4

/-- The bytes of stand i's configuration image, words 1 to 27 of its ORDER slot. -/
def imageBytes (i : StandNo) (a : Nat) : Prop := slotBase (.order i) + 4 ≤ a ∧ a < slotBase (.order i) + 112

/-- The bytes of stand i's status block. -/
def standBlockBytes (i : StandNo) (a : Nat) : Prop := standBlockBase i ≤ a ∧ a < standBlockBase i + 128

/-- The bytes of the line status block. -/
def lineBlockBytes (a : Nat) : Prop := lineBlockBase ≤ a ∧ a < lineBlockBase + 256

/-- The bytes of the splice record table. -/
def recordBytes (a : Nat) : Prop := recordBase 0 ≤ a ∧ a < recordBase 32

/-- A byte that an event with rewrite events of stand i's block alone may change: the block and the image. -/
def standRewriteBytes (i : StandNo) (a : Nat) : Prop := standBlockBytes i a ∨ imageBytes i a

/-- A byte that any event but an intake may change: the status blocks, the images and the record table. -/
def eventBytes (a : Nat) : Prop :=
  lineBlockBytes a ∨ recordBytes a ∨ (∃ i, standBlockBytes i a) ∨ ∃ i, imageBytes i a

/-- The two states read alike outside the bytes given. -/
def sameOutside (bytes : Nat → Prop) (s t : State) : Prop := ∀ a, ¬ bytes a → t.mem.read a = s.mem.read a

/-! ### Words for frames -/

/-- How often a block with n rewrite events is written in an event: not at all while INIT is 1 (R183). -/
def rewritten (s : State) (n : Word) : Word := if s.host.init then 0 else n

/-- How often the image of stand i is written with n rewrites of its status block (R184): as often, while the ORDER
slot reads DONE, and not otherwise. -/
def imagesWith (s : State) (i : StandNo) (n : Word) : Word := if s.orderDone i then rewritten s n else 0

/-- NOTICE with more notices raised (R185). -/
def withNotices (v : BitVec 24) (ns : List Notice) : BitVec 24 :=
  ns.foldl (fun v n => v ||| BitVec.twoPow 24 (noticeBit n)) v

/-- The counts of stand i after n rewrites of its block in one event. -/
def Stand.counted (s : State) (i : StandNo) (n : Word) (d : Stand) : Stand :=
  { d with updateCount := d.updateCount + rewritten s n, imageCount := d.imageCount + imagesWith s i n }

/-- Stand i has become `d`, with n rewrites of its block: no other stand and no other block is touched, the notices
`ns` are raised, and memory keeps every byte outside the block and its image. -/
def StandChanged (i : StandNo) (n : Word) (ns : List Notice) (d : Stand) (s t : State) : Prop :=
  t = { s with stands := t.stands, host := t.host, mem := t.mem } ∧
  t.stand i = d.counted s i n ∧ (∀ j, j ≠ i → t.stand j = s.stand j) ∧
  t.host = { s.host with notice := withNotices s.host.notice ns } ∧
  sameOutside (standRewriteBytes i) s t

/-- What an event of stand i may do to another stand j: its WAITING record may be placed (R170), and the arbiter may
grant the clearance that is released (R137); its counts of rewrites move with these. -/
def OtherStand (s t : State) (j : StandNo) : Prop :=
  let kept (d : Stand) : Stand :=
    { d with
      records := (t.stand j).records, updateCount := (t.stand j).updateCount, imageCount := (t.stand j).imageCount }
  (t.stand j = kept (s.stand j) ∨
    s.arbiter.requested j = true ∧ t.arbiter.holder = some j ∧ t.stand j = kept ((s.stand j).changePhase .armed)) ∧
  (t.stand j).records = { (s.stand j).records with pending := (t.stand j).records.pending } ∧
  ((t.stand j).records.pending = (s.stand j).records.pending ∨ (t.stand j).records.pending = none)

/-- An intake has answered a slot (R180) with a result and no effect beside it but what `u` shows: `u` is the state that
the owning rule leaves, without the answer. -/
def Answered (slot : Slot) (kind : Nat) (r : Result) (u t : State) : Prop :=
  t.header slot = doneHeader kind r ∧
  t.host.attention = u.host.attention &&& ~~~BitVec.twoPow 18 (attentionBit slot) ∧
  t.host.notice = withNotices u.host.notice
    (match slot with
      | .line => [.slotDone]
      | .order i | .command i => [.slotDone, .standNews i]) ∧
  t = { u with stands := t.stands, host := t.host, mem := t.mem } ∧
  t.host = { u.host with attention := t.host.attention, notice := t.host.notice } ∧
  ∀ j, t.stand j = { u.stand j with imageCount := (t.stand j).imageCount }

/-- What every abort of an attempt leaves at its stand (R88, R109): WINDDOWN with its cause and target, the winddown step
from the reference at the entry, the reference, the reels and the timing sets as they were. -/
def WoundDown (i : StandNo) (cause : AbortCause) (target : WinddownTarget) (s t : State) : Prop :=
  let d := s.stand i
  let e := t.stand i
  e.seq = { d.seq with
    phase := .winddown, changes := d.seq.changes + 1, cause := some cause, target := some target
    matchDeadline := none, indexDeadline := none } ∧
  e.speed = { d.speed with
    wdStep := some (max 1 (roundDiv (d.speed.ref * 10) d.setup.tAcc)), frozen := false, matchCount := 0 } ∧
  e.running = d.running ∧ e.ready = d.ready ∧ e.setup = d.setup ∧ e.staged = d.staged ∧ e.spindle = d.spindle ∧
  e.tab = { d.tab with deadline := none } ∧
  e.io.duty = d.io.duty ∧ e.io.pendingDuty = d.io.pendingDuty ∧ e.io.jogDeadline = none

/-- What every entry to FAULTED leaves at its stand (R94, R130): the cause, both timers idle, the drive at rest at once,
the reels as they were. -/
def StoppedFaulted (i : StandNo) (cause : AbortCause) (s t : State) : Prop :=
  let d := s.stand i
  let e := t.stand i
  e.seq = { d.seq with
    phase := .faulted, changes := d.seq.changes + 1, cause := some cause, target := none, matchDeadline := none
    indexDeadline := none, attempt := { d.seq.attempt with knifeLate := none } } ∧
  e.paste = { d.paste with oneShot := .idle, dwellEnd := none, knife := .idle, knifeEnd := none } ∧
  e.speed = { d.speed with ref := 0, frozen := false, wdStep := none } ∧
  e.io.duty = 0 ∧ e.io.pendingDuty = 0 ∧ e.io.driveOut = false ∧
  e.running = d.running ∧ e.ready = d.ready ∧ e.setup = d.setup ∧ e.staged = d.staged ∧ e.spindle = d.spindle

/-- What the entry to ACCELERATING leaves at its stand (R80, R100, R65, R114), `n` changes of state after `d`. -/
def FreshAttempt (n : Word) (d e : Stand) : Prop :=
  e.seq = ⟨.accelerating, d.seq.changes + n, none, none, none, none, .absent⟩ ∧
  e.speed = ⟨0, 0, 0, 0, none, 0, false, none⟩ ∧
  e.paste = { d.paste with knifeLateFlag := false } ∧
  e.tab = { d.tab with last := none, p := none, cTab := none, pp := none, rejects := 0, deadline := none } ∧
  e.io = { d.io with pendingDuty := 0, jogDeadline := none } ∧
  e.staged = d.staged

/-- The six conditions of the automatic start test (R75). -/
def StartConditions (s : State) (i : StandNo) : Prop :=
  let d := s.stand i
  d.spindle.validity = .valid ∧ s.line.params.vMin ≤ s.line.vLine ∧ s.line.encoderFault = false ∧
  s.safeAsserted = false ∧ d.io.jogDeadline = none ∧
  ∃ r, d.running = some r ∧
    remainingLength d.spindle.estimate r.reel.caliper r.reel.splice ≤
      roundDiv (s.line.vLine * (d.setup.tAcc + d.setup.tSettle)) 10

/-- A value stored by the spindle side (R58): steps 1 to 5. -/
def StoredRevolution (v : Nat) (x y : SpindleSide) : Prop :=
  y.history = (if x.history.length < 4 then x.history else x.history.tail) ++ [v] ∧
  y.cp = some v ∧ y.rejects = 0 ∧ y.validity = .valid ∧
  y.estimate = min (roundDiv (y.history.sum * 10000) (y.history.length * 31416)) 13000

end Sys2Proof.Machine
end

