-- ==== Sys2Proof/WellFormed.lean ====
section
/-!
DEFINITION. Which commands the part can be given: the checks on operands that the host bus itself makes.
-/
namespace Sys2Proof

/-- Every access of the table area is a word at a word-aligned address (R177). -/
abbrev alignedOffset (offset : BitVec 13) : Prop := offset.toNat % 4 = 0

/-- A register offset with no row of its own: neither ATTENTION, NOTICE, NOTICE ENABLE nor NOTICE LEVEL
(R177), and UNIT only with bit 0 of the value clear (R187). -/
abbrev noRegisterEffect (offset value : Word) : Prop :=
  offset ≠ 0x00 ∧ offset ≠ 0x04 ∧ offset ≠ 0x08 ∧ offset ≠ 0x0C ∧ (offset = 0x10 → value.getLsbD 0 = false)

/-- The well-formedness of a command's operands: aligned table offsets (R177), register writes without a row
of their own (R177), UNIT writes with bit 0 set as device resets (R187, R188). Every other operand is in range by its type. -/
def Instr.wellFormed : Instr → Bool
  | .hostTableWrite offset _ => decide (alignedOffset offset)
  | .undefinedRegisterWrite offset value => decide (noRegisterEffect offset value)
  | .deviceReset (.unitWrite value) => value.getLsbD 0
  | _ => true

end Sys2Proof
end

