-- ==== Sys2Proof/Certificates/Slice0/Obligations.lean ====
section
/-!
DEFINITION. The statements about the model, chapter by chapter. Each docstring names the rules it formalises. A premise
`s.host.resetLow = false` says that the RESET pin is not held low; the statement ResetGivesTheResetValues says what happens while
it is. Memory is spoken of through `Memory.read`, the byte at an offset.
-/
open Sys2Proof Sys2Proof.Machine

/-! ### The machine -/

/-- A step with a command at the front of the queue is that command's meaning on the state with the queue's rest. -/
def Obligations.StepRunsFrontCommand : Prop :=
  ∀ (c : Instr) (rest : List Instr) (s : State),
    step { s with pending := c :: rest } = exec c { s with pending := rest }

/-- MODEL'S CHOICE (log entry 2). On an empty queue a due timed event takes place; where none is due the µs clock
advances by one (R3), and nothing happens while a reset lasts. -/
def Obligations.EmptyQueueLetsTimeRun : Prop :=
  ∀ s : State, s.pending = [] →
    (∀ c, dueCommand s = some c → step s = exec c s) ∧
    (dueCommand s = none → s.host.resetLow = true → step s = .next s) ∧
    (dueCommand s = none → s.host.resetLow = false →
      ∃ t, step s = .next t ∧ t.line.usClock = s.line.usClock + 1 ∧ t.line.nextSample = s.line.nextSample ∧
        t.line.lineCount = s.line.lineCount ∧ t.line.sampleCounter = s.line.sampleCounter ∧ t.pending = [])

/-- The laws of the device hold in the state right after reset. -/
def Obligations.ResetMeetsTheLaws : Prop :=
  State.reset.mem.wf ∧ ClearanceLaw State.reset ∧ ReelLaw State.reset ∧ DriveLaw State.reset ∧ BoundsLaw State.reset ∧
    DeadlineLaw State.reset ∧ PasteLaw State.reset ∧ QueueLaw State.reset ∧ GateLaw State.reset ∧
    TrackingLaw State.reset ∧ RecordLaw State.reset ∧ BreakLaw State.reset

/-! ### Laws that every step keeps -/

/-- Every step keeps the canonical form of the table area. -/
def Obligations.StepKeepsMemoryCanonical : Prop := ∀ s t : State, s.mem.wf → step s = .next t → t.mem.wf

/-- R134, R139: every step keeps the law of the clearance. -/
def Obligations.StepKeepsClearanceLaw : Prop := ∀ s t : State, ClearanceLaw s → step s = .next t → ClearanceLaw t

/-- R72: every step keeps the law of the reel records, where the law of the clearance holds. -/
def Obligations.StepKeepsReelLaw : Prop :=
  ∀ s t : State, ClearanceLaw s → ReelLaw s → step s = .next t → ReelLaw t

/-- R99, R24: every step keeps the law of the drive reference. -/
def Obligations.StepKeepsDriveLaw : Prop := ∀ s t : State, DriveLaw s → step s = .next t → DriveLaw t

/-- R106, R34, R41: every step keeps the bounded quantities and the ranges of what requests set. -/
def Obligations.StepKeepsBounds : Prop := ∀ s t : State, BoundsLaw s → step s = .next t → BoundsLaw t

/-- R73, R72, R69, R31: in every step a deadline stays with the state it was set for. -/
def Obligations.StepKeepsDeadlines : Prop := ∀ s t : State, DeadlineLaw s → step s = .next t → DeadlineLaw t

/-- R125, R114: every step keeps the timers of paste timing in their own states. -/
def Obligations.StepKeepsPasteTimers : Prop :=
  ∀ s t : State, ClearanceLaw s → PasteLaw s → step s = .next t → PasteLaw t

/-- R148, R152: every step keeps the law of the run queue and the law of the gate output. -/
def Obligations.StepKeepsGateSchedule : Prop :=
  ∀ s t : State, step s = .next t → (QueueLaw s → QueueLaw t) ∧ (GateLaw s → GateLaw t)

/-- R143, R163, R164: every step keeps at most 16 tracking entries with distinct serials, the creation order of the
pending records, and a next serial of 1 to 65,535. -/
def Obligations.StepKeepsSplicesAndRecords : Prop :=
  ∀ s t : State, step s = .next t → (TrackingLaw s → TrackingLaw t) ∧ (RecordLaw s → RecordLaw t)

/-- R21, R22: after every step a break group is armed exactly while no enabled input is asserted. -/
def Obligations.StepKeepsBreakGroups : Prop := ∀ s t : State, BreakLaw s → step s = .next t → BreakLaw t

/-! ### Reset, initialisation and the host's windows (chapter 11) -/

/-- R188, R14, R32, R23: a UNIT write with bit 0 set, the RESET pin going low and its release give every block its reset
values and leave the table area. While the pin is low the outputs are inactive. Where a reset ends, the first samples are the
levels of the inputs and the encoder's reference pair, and notice SAFE stands where SAFE is asserted. MODEL'S CHOICE: while
the pin is low no command but a reset and its release does anything (log entry 20), the first samples at a UNIT write are
the levels on the pins as they stand (log entry 23), and the release gives them as its operand (log entry 7). -/
def Obligations.ResetGivesTheResetValues : Prop :=
  (∀ (v : Word) (s : State), s.host.resetLow = false → v.getLsbD 0 = true →
    ∃ t, exec (.deviceReset (.unitWrite v)) s = .next t ∧ HasResetValues t ∧ t.host.resetLow = false ∧
      t.host.notice = (if s.safe.pin then 0 else 0x001000) ∧ t.mem = s.mem ∧
      FirstSample s.line.cut.pin t.line.cut ∧ FirstSample s.safe.pin t.safe ∧
      (∀ (i : StandNo) (n : StandInput), FirstSample (s.input (.stand i n)).pin (t.input (.stand i n)))) ∧
  (∀ s : State, ∃ t, exec (.deviceReset .pin) s = .next t ∧ HasResetValues t ∧ t.host.resetLow = true ∧
    t.host.notice = 0 ∧ t.mem = s.mem ∧ t.gateOut = false ∧
    ∀ i : StandNo, t.pasteOut i = false ∧ t.knifeOut i = false ∧ t.indexOut i = false ∧ t.driveRefOut i = false ∧
      t.phaseOut i = 0) ∧
  (∀ (c : Instr) (s : State), s.host.resetLow = true → c.wellFormed = true → c ≠ .deviceReset .pin →
    (∀ p, c ≠ .resetRelease p) → exec c s = .next s) ∧
  (∀ (p : Pins) (s : State), s.host.resetLow = true →
    ∃ t, exec (.resetRelease p) s = .next t ∧ HasResetValues t ∧ t.host.resetLow = false ∧ t.mem = s.mem ∧
      t.host.notice = (if p.safe then 0 else 0x001000) ∧ t.line.refA = p.a ∧ t.line.refB = p.b ∧
      FirstSample p.cut t.line.cut ∧ FirstSample p.safe t.safe ∧
      ∀ i : StandNo,
        FirstSample (p.stands[i.val].getLsbD 0) (t.input (.stand i .spindle)) ∧
        FirstSample (p.stands[i.val].getLsbD 1) (t.input (.stand i .tabA)) ∧
        FirstSample (p.stands[i.val].getLsbD 2) (t.input (.stand i .tabB)) ∧
        FirstSample (p.stands[i.val].getLsbD 3) (t.input (.stand i .indexHome)) ∧
        ∀ k : Fin 4, FirstSample (p.stands[i.val].getLsbD (4 + k.val)) (t.input (.stand i (.brk k))))

/-- R189: the end of the initialisation. Every slot is EMPTY and every record entry 0 where the initialisation had not
cleared them before, the nine status blocks show their blocks, INIT is 0, and the host's own area is as it was. MODEL'S
CHOICE: how far it had come is the model's own field initStage, which counts whole steps (log entries 6, 29), and all nine
blocks are written at this step (log entry 6), with their update counts as they stand, which are 0 in every run (log entry
28). -/
def Obligations.InitialisationEndBringsTheTableUp : Prop :=
  ∀ s : State, s.host.resetLow = false → s.host.init = true →
    ∃ t, exec .initialisationEnd s = .next t ∧
      t = { s with mem := t.mem, host := { s.host with init := false, initStage := max s.host.initStage 2 } } ∧
      (s.host.initStage = 0 → ∀ a, a < 0x0640 → t.mem.read a = 0) ∧
      (s.host.initStage ≤ 1 → ∀ a, recordBytes a → t.mem.read a = 0) ∧
      (∀ n, n < 64 → t.mem.readWord (lineBlockBase + 4 * n) = (lineBlock s).getD n 0) ∧
      (∀ (i : StandNo) (n : Nat), n < 32 →
        t.mem.readWord (standBlockBase i + 4 * n) = (standBlock s.line.vLine (s.stand i)).getD n 0) ∧
      ∀ a, 0x1340 ≤ a → t.mem.read a = s.mem.read a

/-- R177, R178, R189: a host write of a word to the table area leaves that word and changes no other byte; during the
initialisation it is taken as well, and then the initialisation may have cleared slots and record entries before it (the
stage is a free value, log entry 6, and counts whole steps, log entry 29). An address that is not word-aligned is no access of the bus: MODEL'S CHOICE, a fault
(log entry 21). -/
def Obligations.HostWriteStoresOneWord : Prop :=
  ∀ (off : BitVec 13) (v : Word) (s : State),
    (off.toNat % 4 ≠ 0 → exec (.hostTableWrite off v) s = .fault .misalignedTableAccess) ∧
    (off.toNat % 4 = 0 → s.host.resetLow = false →
      ∃ t, exec (.hostTableWrite off v) s = .next t ∧ t.mem.readWord off.toNat = v ∧
        (s.host.init = false →
          t = { s with mem := t.mem } ∧ sameOutside (fun a => off.toNat ≤ a ∧ a < off.toNat + 4) s t) ∧
        (s.host.init = true →
          t = { s with mem := t.mem, free := s.free + 1, host := { s.host with initStage := t.host.initStage } } ∧
          sameOutside (fun a => (off.toNat ≤ a ∧ a < off.toNat + 4) ∨ a < 0x0640 ∨ recordBytes a) s t))

/-- R180: each request, taken in POSTED with its kind, is answered: its member leaves the attention set, the header
reads DONE with the kind and a result, SLOT_DONE and the stand's STAND NEWS are raised. The answer and the event's blocks
are all that memory shows of it. -/
def Obligations.EveryRequestIsAnswered : Prop :=
  ∀ (c : Instr) (slot : Slot) (kind : Nat) (s : State),
    c.request = some (slot, kind) → s.host.resetLow = false → requestDue slot kind s = true →
    (c = .freeze → s.gateCode = 3) → (c = .gateOverride → s.gateCode ≠ 3) →
    ∃ (r : Result) (t : State), exec c s = .next t ∧ t.header slot = doneHeader kind r ∧
      t.host.attention = s.host.attention &&& ~~~BitVec.twoPow 18 (attentionBit slot) ∧
      t.host.notice.getLsbD 0 = true ∧
      (∀ i : StandNo, slot = .order i ∨ slot = .command i → t.host.notice.getLsbD (16 + i.val) = true) ∧
      sameOutside (fun a => headerBytes slot a ∨ eventBytes a) s t

/-- R180, R182: a POSTED request of a kind its slot does not permit is answered REFUSED_KIND and changes nothing else but
the image of an ORDER slot or of a COMMAND slot's stand; an intake of a slot that is not POSTED removes the member alone. -/
def Obligations.KindAndStateOfASlotAreJudged : Prop :=
  ∀ (slot : Slot) (s : State), s.host.resetLow = false → s.attends (attentionBit slot) = true →
    (headerState (s.header slot) = 1 → kindPermitted slot (headerKind (s.header slot)) = false →
      ∃ t, exec (.refusedKind slot) s = .next t ∧
        Answered slot (headerKind (s.header slot)) .refusedKind s t ∧
        sameOutside (fun a => headerBytes slot a ∨ ∃ i, (slot = .order i ∨ slot = .command i) ∧ imageBytes i a) s t) ∧
    (headerState (s.header slot) ≠ 1 →
      exec (.slotIntakeNotPosted slot) s = .next { s with host := { s.host with
        attention := s.host.attention &&& ~~~BitVec.twoPow 18 (attentionBit slot) } })

/-- R183, R184: whatever command rewrites a status block, the block's words are those of the state it leaves, in the
layout of section 11.6 with the update count last; after an intake of a POSTED request in ORDER slot i the configuration
image shows the stand's records and setup sets and its count is one higher, and after one in COMMAND slot i it shows them
while the ORDER slot reads DONE. That blocks hold the values at the end of the event is the MODEL'S CHOICE (log entry
4). -/
def Obligations.BlocksAndImagesShowTheState : Prop :=
  (∀ (c : Instr) (s t : State), exec c s = .next t → t.host.init = false →
    (s.host.init = false → t.host.lineUpdates ≠ s.host.lineUpdates →
      ∀ n, n < 64 → t.mem.readWord (lineBlockBase + 4 * n) = (lineBlock t).getD n 0) ∧
    ∀ i : StandNo, s.host.init = false → (t.stand i).updateCount ≠ (s.stand i).updateCount →
      ∀ n, n < 32 →
        t.mem.readWord (standBlockBase i + 4 * n) = (standBlock t.line.vLine (t.stand i)).getD n 0) ∧
  (∀ (c : Instr) (i : StandNo) (kind : Nat) (s t : State),
    exec c s = .next t → s.host.resetLow = false →
    (c.request = some (.order i, kind) → requestDue (.order i) kind s = true →
      (t.stand i).imageCount = (s.stand i).imageCount + 1 ∧
      ∀ n, n < 27 → t.mem.readWord (slotBase (.order i) + 4 + 4 * n) = (imageWords (t.stand i)).getD n 0) ∧
    (c.request = some (.command i, kind) → requestDue (.command i) kind s = true → s.orderDone i = true →
      ∀ n, n < 27 → t.mem.readWord (slotBase (.order i) + 4 + 4 * n) = (imageWords (t.stand i)).getD n 0))

/-- R178: the part writes the areas that are its own: slot headers, images, status blocks and record entries. Request
bodies of the LINE and COMMAND slots and the words from 0x1340 upward keep what the host left in them. -/
def Obligations.PartWritesItsOwnAreas : Prop :=
  ∀ (c : Instr) (s t : State), exec c s = .next t → (∀ off v, c ≠ .hostTableWrite off v) →
    (c ≠ .initialisationEnd → sameOutside (fun a => eventBytes a ∨ ∃ slot, headerBytes slot a) s t) ∧
    ∀ a, 0x1340 ≤ a → t.mem.read a = s.mem.read a

/-- R179, R185, R186, R177, R187: a write to each register does what its rule says to that register and changes nothing
else; a write that has no row of its own changes nothing. -/
def Obligations.RegisterWrites : Prop :=
  ∀ (v : Word) (s : State), s.host.resetLow = false →
    exec (.attentionWrite v) s = .next (if s.host.init then s else
      { s with host := { s.host with attention := s.host.attention ||| v.setWidth 18 } }) ∧
    exec (.noticeWrite v) s = .next { s with host := { s.host with notice := s.host.notice &&& ~~~v.setWidth 24 } } ∧
    exec (.noticeEnableWrite v) s = .next { s with host := { s.host with enable := v.setWidth 24 } } ∧
    exec (.noticeLevelWrite v) s = .next { s with host := { s.host with level := v.setWidth 24 } } ∧
    ∀ off, exec (.undefinedRegisterWrite off v) s = .next s

/-- R186, R187: the two interrupt lines, the top notice read in UNIT beside INIT and the version code, and the write of
UNIT. -/
def Obligations.InterruptLinesAndTopNotice : Prop :=
  ∀ s : State,
    (s.alertLine = true ↔ ∃ k, k < 24 ∧
      s.host.notice.getLsbD k = true ∧ s.host.enable.getLsbD k = true ∧ s.host.level.getLsbD k = true) ∧
    (s.noteLine = true ↔ ∃ k, k < 24 ∧
      s.host.notice.getLsbD k = true ∧ s.host.enable.getLsbD k = true ∧ s.host.level.getLsbD k = false) ∧
    (∀ k, k < 24 → s.host.alertBits.getLsbD k = true → (∀ j, j < k → s.host.alertBits.getLsbD j = false) →
      s.host.topNotice = k) ∧
    (∀ k, k < 24 → s.alertLine = false → s.host.noteBits.getLsbD k = true →
      (∀ j, j < k → s.host.noteBits.getLsbD j = false) → s.host.topNotice = k) ∧
    (s.alertLine = false → s.noteLine = false → s.host.topNotice = 63) ∧
    bitsOf (s.registerRead 0x10) 0 1 = flag s.host.init ∧ bitsOf (s.registerRead 0x10) 1 7 = 0 ∧
    bitsOf (s.registerRead 0x10) 8 6 = s.host.topNotice ∧ bitsOf (s.registerRead 0x10) 14 10 = 0 ∧
    bitsOf (s.registerRead 0x10) 24 8 = 0x12 ∧
    (∀ v : Word, v.getLsbD 0 = false → exec (.deviceReset (.unitWrite v)) s = .next s) ∧
    (∀ v : Word, v.getLsbD 0 = true → s.host.resetLow = false →
      ∃ t, exec (.deviceReset (.unitWrite v)) s = .next t ∧ HasResetValues t)

/-! ### Line reference (chapter 1) -/

/-- R1: a transition makes the new pair the reference; one place forward or backward steps the line count by one, two
places leave it. A step of the line count changes no stand's state, drive reference by ramp, setup, reels or inputs, and
no speed; an illegal transition is IllegalTransitionsAndTheirWindow's. What else a step brings about: a stalled spindle is
LOST with its reference cleared (R57), the last nip ages going forward or moves back going backward (R136), the aged
tracking entries leave the list and are retired LOST (R145), and a knife whose distance is reached starts (R126, R128). The
synthetic boundaries of the step (R9), which come first (MODEL'S CHOICE, log entry 10), are SyntheticBoundaries'. -/
def Obligations.QuadratureStepsTheLineCount : Prop :=
  ∀ (a b : Bool) (s : State), s.host.resetLow = false → (a != s.line.refA || b != s.line.refB) = true →
    ∃ t, exec (.quadratureTransition a b) s = .next t ∧ t.line.refA = a ∧ t.line.refB = b ∧
      t.line.lineCount =
        (if quadraturePlace a b = (quadraturePlace s.line.refA s.line.refB + 1) % 4 then s.line.lineCount + 1
          else if quadraturePlace a b = (quadraturePlace s.line.refA s.line.refB + 3) % 4 then s.line.lineCount - 1
          else s.line.lineCount) ∧
      t.line.usClock = s.line.usClock ∧ t.line.nextSample = s.line.nextSample ∧
      t.line.sampleCounter = s.line.sampleCounter ∧ t.line.prevCount = s.line.prevCount ∧ t.line.v = s.line.v ∧
      t.line.vLine = s.line.vLine ∧ t.line.cut = s.line.cut ∧ t.line.spuriousCuts = s.line.spuriousCuts ∧
      t.line.params = s.line.params ∧ t.line.windowEndDue = s.line.windowEndDue ∧
      t.safe = s.safe ∧ t.phases = s.phases ∧ t.free = s.free ∧ t.pending = s.pending ∧
      t.host = { s.host with notice := t.host.notice, lineUpdates := t.host.lineUpdates } ∧
      sameOutside eventBytes s t ∧
      (quadraturePlace a b ≠ (quadraturePlace s.line.refA s.line.refB + 2) % 4 →
        t.line.illegalTotal = s.line.illegalTotal ∧ t.line.windowCount = s.line.windowCount ∧
        t.line.encoderFault = s.line.encoderFault ∧
        ∀ i : StandNo, t.phase i = s.phase i ∧ (t.stand i).running = (s.stand i).running ∧
          (t.stand i).ready = (s.stand i).ready ∧ (t.stand i).setup = (s.stand i).setup ∧
          (t.stand i).staged = (s.stand i).staged ∧ (t.stand i).tab = (s.stand i).tab ∧
          (t.stand i).io.inputs = (s.stand i).io.inputs ∧ (t.stand i).io.duty = (s.stand i).io.duty ∧
          ((t.stand i).speed.ref = (s.stand i).speed.ref ∨
            (t.stand i).speed.ref = 0 ∧ (t.stand i).paste.knife = .active)) ∧
      ∀ forward : Bool,
        quadraturePlace a b = (quadraturePlace s.line.refA s.line.refB + (if forward then 1 else 3)) % 4 →
        let c := if forward then s.line.lineCount + 1 else s.line.lineCount - 1
        let u := examineThreshold { s with line := { s.line with refA := a, refB := b, lineCount := c } }
        let aged (e : TrackEntry) : Bool := atOrAfter c (e.zoneEnd + 1073741824)
        let lost := retireLost (u.tracker.entries.filter aged) u
        t.arbiter = { s.arbiter with
          lastNip :=
            if s.arbiter.lastNipValid = true ∧ forward = false ∧ c = s.arbiter.lastNip - 1073741825 then
              s.arbiter.lastNip - 1
            else s.arbiter.lastNip
          lastNipValid :=
            s.arbiter.lastNipValid && !(forward && decide (c = s.arbiter.lastNip + 1073741824)) } ∧
        t.tracker = { u.tracker with entries := u.tracker.entries.filter fun e => !aged e } ∧
        (∀ k, recordBytes k → t.mem.read k = lost.mem.read k) ∧ t.records = s.records ∧
        ∀ i : StandNo,
          let d := s.stand i
          let e := t.stand i
          let stalled := (s.phase i).isMeasuring = true ∧ d.spindle.validity = .valid ∧ ∃ r, d.spindle.ref = some r ∧
            atOrAfter c (r + BitVec.ofNat 32
              (3 * d.spindle.cp.getD (roundDiv (d.spindle.estimate * 31416) 10000) + 1)) = true
          let cuts := s.phase i = .cutting ∧ d.paste.knife = .wait ∧ ∃ n, d.seq.attempt.nipCount = some n ∧
            atOrAfter c (n + BitVec.ofNat 32 d.setup.knifeDelay) = true
          e.records = (lost.stand i).records ∧
          (stalled → e.spindle = { d.spindle with validity := .lost, ref := none } ∧ t.host.notice.getLsbD 14 = true) ∧
          (¬ stalled → e.spindle = d.spindle) ∧
          (cuts →
            e.paste = { d.paste with
              knife := .active, knifeEnd := some (s.line.usClock + BitVec.ofNat 32 d.setup.knifeWidth) } ∧
            e.seq = { d.seq with attempt := { d.seq.attempt with knifeLate := none } } ∧
            e.speed = { d.speed with ref := 0, frozen := false } ∧ e.io = { d.io with pendingDuty := 0 }) ∧
          (¬ cuts → e.paste = d.paste ∧ e.seq = d.seq ∧ e.speed = d.speed ∧ e.io = d.io)

/-- R2, R5: an illegal transition leaves the line count, counts in the total and in the window, raises ENC_ERROR, and at
a window count of 16 or more with the flag clear sets it with ENC_FAULT; the end of a window clears a flag whose window
held none, and the window count. That the end of a window is a step of its own, due by the field windowEndDue, is the
MODEL'S CHOICE (log entry 11). -/
def Obligations.IllegalTransitionsAndTheirWindow : Prop :=
  (∀ (a b : Bool) (s : State), s.host.resetLow = false →
    quadraturePlace a b = (quadraturePlace s.line.refA s.line.refB + 2) % 4 →
    ∃ t, exec (.quadratureTransition a b) s = .next t ∧
      let raised := decide (16 ≤ min (s.line.windowCount + 1) 65535) && !s.line.encoderFault
      (s.line.illegalTotal ≤ 4294967295 → s.line.windowCount ≤ 65535 →
        t.line = { s.line with
          refA := a, refB := b, illegalTotal := min (s.line.illegalTotal + 1) 4294967295
          windowCount := min (s.line.windowCount + 1) 65535, encoderFault := s.line.encoderFault || raised }) ∧
      t.host.notice.getLsbD 9 = true ∧
      t.host.notice.getLsbD 10 =
        (s.host.notice.getLsbD 10 || decide (16 ≤ t.line.windowCount) && !s.line.encoderFault) ∧
      t.tracker = s.tracker ∧
      (t.line.encoderFault = s.line.encoderFault →
        t = { s with line := t.line, host := { s.host with notice := t.host.notice } }) ∧
      (ClearanceLaw s → s.line.encoderFault = false → t.line.encoderFault = true →
        ∀ i : StandNo,
          ((s.phase i).isAttempt → t.phase i = .winddown ∧ (t.stand i).seq.cause = some .lineFault ∧
            (t.stand i).seq.target = some .held) ∧
          (¬ (s.phase i).isAttempt → (t.stand i).seq = (s.stand i).seq))) ∧
  (∀ s : State, s.host.resetLow = false → s.line.windowEndDue = true →
    exec .encoderFaultWindowEnd s = .next { s with line := { s.line with
      encoderFault := if s.line.windowCount = 0 then false else s.line.encoderFault
      windowCount := 0, windowEndDue := false } })

/-- R3, R4: a speed sample forms V from the travel since the last one, clamped to ±4000, V_line from V, latches the line
count, advances the counter and the next-sample time, and changes nothing else of the line reference. At a counter that is
a multiple of 100 the end of a window is due, a step of its own (MODEL'S field, log entry 11). -/
def Obligations.SpeedSampleMeasuresTheLine : Prop :=
  ∀ s : State, s.host.resetLow = false → atOrAfter s.line.usClock s.line.nextSample = true →
    ∃ t, exec .speedSample s = .next t ∧
      let travel := (s.line.lineCount - s.line.prevCount).toInt
      let v := if travel < -4000 then -4000 else if 4000 < travel then 4000 else travel
      let counter := if s.line.sampleCounter < 3999999999 then s.line.sampleCounter + 1 else 0
      t.line = { s.line with
        v := v, vLine := if 0 < v then v.toNat else 0, prevCount := s.line.lineCount, sampleCounter := counter
        nextSample := s.line.nextSample + 10000, windowEndDue := s.line.windowEndDue || counter % 100 == 0 } ∧
      t.host.lineUpdates = s.host.lineUpdates + rewritten s (if counter % 10 = 0 then 1 else 0) ∧
      t.safe = s.safe ∧ t.tracker = s.tracker ∧ t.phases = s.phases ∧ t.free = s.free ∧ t.pending = s.pending ∧
      t.arbiter.lastNip = s.arbiter.lastNip ∧ t.arbiter.lastNipValid = s.arbiter.lastNipValid ∧
      sameOutside eventBytes s t ∧
      ∀ i : StandNo, (t.stand i).setup = (s.stand i).setup ∧ (t.stand i).staged = (s.stand i).staged ∧
        (t.stand i).spindle = (s.stand i).spindle ∧ (t.stand i).ready = (s.stand i).ready ∧
        (t.stand i).io.inputs = (s.stand i).io.inputs ∧ (t.stand i).io.duty = (s.stand i).io.duty

/-- R81, R89, R91, R101, R102, R110: what one speed sample does to a stand, by its state: a line below V_min ends an
attempt with LINE_SLOW; else ACCELERATING takes its ramp step and may enter MATCHING, MATCHING, ARMED and PASTING take the
trimmed target, WINDDOWN its step down to its target state, and the other states nothing. -/
def Obligations.SpeedSampleMovesTheStands : Prop :=
  ∀ (s t : State) (i : StandNo), s.host.resetLow = false → atOrAfter s.line.usClock s.line.nextSample = true →
    ClearanceLaw s → s.safeAsserted = false → exec .speedSample s = .next t →
    let d := s.stand i
    let e := t.stand i
    let v := t.line.vLine
    let target := (clampInt 0 4000 (roundDivInt ((v : Int) * (1000 + d.speed.trim)) 1000)).toNat
    let kr := d.speed.kr + 1
    ((s.phase i).isAttempt → v < s.line.params.vMin →
      t.phase i = .winddown ∧ e.seq.cause = some .lineSlow ∧ e.seq.target = some .held ∧ e.speed.ref = d.speed.ref ∧
      e.speed.kr = d.speed.kr) ∧
    (s.phase i = .accelerating → s.line.params.vMin ≤ v →
      e.speed.kr = kr ∧ e.speed.target = target ∧ e.io.pendingDuty = e.speed.ref ∧
      e.speed.ref = (if d.setup.tAcc ≤ 10 * kr then target else min target (roundDiv (v * 10 * kr) d.setup.tAcc)) ∧
      (10 * kr < d.setup.tAcc + d.setup.tSettle → t.phase i = .accelerating ∧ e.seq = d.seq) ∧
      (d.setup.tAcc + d.setup.tSettle ≤ 10 * kr →
        (reached s.line.usClock d.tab.deadlineOf = false →
          t.phase i = .matching ∧
          e.seq.matchDeadline = some (s.line.usClock + BitVec.ofNat 32 (1000 * d.setup.tMatch))) ∧
        (reached s.line.usClock d.tab.deadlineOf = true →
          t.phase i = .winddown ∧ e.seq.cause = some .markLost ∧ e.seq.target = some .held))) ∧
    (s.phase i = .matching ∨ s.phase i = .armed → s.line.params.vMin ≤ v →
      e.speed.ref = target ∧ e.speed.target = target ∧ e.io.pendingDuty = target ∧ e.speed.kr = d.speed.kr ∧
      (t.phase i = s.phase i ∨ s.phase i = .matching ∧ t.phase i = .armed ∧ t.arbiter.holder = some i)) ∧
    (s.phase i = .pasting →
      e.speed.ref = target ∧ e.speed.target = target ∧ e.io.pendingDuty = target ∧ t.phase i = .pasting) ∧
    (s.phase i = .winddown → ∀ step, d.speed.wdStep = some step →
      (step < d.speed.ref → e.speed.ref = d.speed.ref - step ∧ e.io.pendingDuty = d.speed.ref - step ∧ e.seq = d.seq) ∧
      (d.speed.ref ≤ step → e.speed.ref = 0 ∧ e.io.pendingDuty = 0 ∧ e.speed.wdStep = none ∧
        (d.seq.target = some .held → t.phase i = .held ∧ e.running = d.running) ∧
        (d.seq.target = some .idle → t.phase i = .idle ∧ e.running = none))) ∧
    ((s.phase i).isRest ∨ s.phase i = .cutting → e.seq = d.seq ∧ e.speed = d.speed ∧ e.io = d.io ∧ e.paste = d.paste)

/-- R6, R7, R8: a CUT edge is ignored at V of 0 or below; it counts as spurious before half a cutoff past the boundary
reference; else it makes a real boundary at the line count: the next copy number, the reference, NORMAL, a run count of 0
and a rewrite of the line status block. -/
def Obligations.CutEdgeIsJudged : Prop :=
  ∀ s : State, s.host.resetLow = false → s.line.cut.level = false →
    ∃ t, exec .cutEdge s = .next t ∧
      let cut : Input := ⟨true, true, true, 0⟩
      let c := s.line.lineCount
      let spurious := ∃ ref, s.line.boundaryRef = some ref ∧
        atOrAfter c (ref + BitVec.ofNat 32 (s.line.params.cutoff / 2)) = false
      (s.line.v ≤ 0 → t = { s with line := { s.line with cut := cut } }) ∧
      (0 < s.line.v → spurious → s.line.spuriousCuts ≤ 4294967295 →
        t = { s with line := { s.line with cut := cut, spuriousCuts := min (s.line.spuriousCuts + 1) 4294967295 } }) ∧
      (0 < s.line.v → ¬ spurious →
        t.line = { s.line with
          cut := cut, copyNumber := s.line.copyNumber + 1, boundaryRef := some c, lastKind := some .real
          cutStatus := .normal, syntheticRun := 0 } ∧
        t.host.lineUpdates = s.host.lineUpdates + rewritten s 1 ∧ t.tracker.lastStatus = .normal ∧
        t.safe = s.safe ∧ t.arbiter = s.arbiter ∧ t.phases = s.phases ∧ t.free = s.free ∧ t.pending = s.pending ∧
        (∀ i : StandNo, t.stand i = { s.stand i with
          records := (t.stand i).records, updateCount := (t.stand i).updateCount
          imageCount := (t.stand i).imageCount }) ∧
        sameOutside eventBytes s t)

/-- R9, R10: an examination of the synthetic threshold makes no boundary while the reference is absent or the line count
is before reference + cutoff + cutoff/2; at or after it, it makes one at reference + cutoff and examines again, until the
threshold lies ahead. A synthetic boundary takes the next copy number, counts in the run, whose count gives the cut status
and, at 1 and at 9, the notice, and is handed to the tracker. The threshold is examined at each step of the line count,
before its other consequences (MODEL'S CHOICE, log entry 10), and at a LINE SETUP that changes the cutoff. -/
def Obligations.SyntheticBoundaries : Prop :=
  (∀ s : State,
    (s.line.boundaryRef = none → examineThreshold s = s) ∧
    ∀ ref, s.line.boundaryRef = some ref →
      let cutoff := BitVec.ofNat 32 s.line.params.cutoff
      let threshold := ref + cutoff + BitVec.ofNat 32 (s.line.params.cutoff / 2)
      (atOrAfter s.line.lineCount threshold = false → examineThreshold s = s) ∧
      (1 ≤ s.line.params.cutoff → s.line.params.cutoff ≤ 20000 → atOrAfter s.line.lineCount threshold = true →
        examineThreshold s = examineThreshold (makeSynthetic (ref + cutoff) s))) ∧
  (∀ s : State, 1 ≤ s.line.params.cutoff → s.line.params.cutoff ≤ 20000 →
    ∀ ref, (examineThreshold s).line.boundaryRef = some ref →
      atOrAfter s.line.lineCount
        (ref + BitVec.ofNat 32 s.line.params.cutoff + BitVec.ofNat 32 (s.line.params.cutoff / 2)) = false) ∧
  (∀ (s : State) (cb : Word), s.line.syntheticRun ≤ 65535 →
    let t := makeSynthetic cb s
    let run := min (s.line.syntheticRun + 1) 65535
    let w := trackBoundary cb (s.line.copyNumber + 1) { s with line := t.line }
    t.line = { s.line with
      copyNumber := s.line.copyNumber + 1, boundaryRef := some cb, lastKind := some .synthetic, syntheticRun := run
      cutStatus := if run ≤ 8 then .synthetic else .fault } ∧
    t.tracker.lastStatus = t.line.cutStatus ∧ (9 ≤ run → t.tracker.output = .divert) ∧
    (run = 1 → t.host.notice.getLsbD 7 = true) ∧ (run = 9 → t.host.notice.getLsbD 8 = true) ∧
    (run ≠ 1 → t.host.notice.getLsbD 7 = s.host.notice.getLsbD 7) ∧
    (run ≠ 9 → t.host.notice.getLsbD 8 = s.host.notice.getLsbD 8) ∧
    t.tracker = w.tracker ∧ t.mem = w.mem ∧ (∀ i : StandNo, t.stand i = w.stand i) ∧
    t.arbiter = s.arbiter ∧ t.records = s.records ∧
    t.host.lineUpdates = s.host.lineUpdates + rewritten s 1) ∧
  (∀ (a b forward : Bool) (s : State), s.host.resetLow = false →
    quadraturePlace a b = (quadraturePlace s.line.refA s.line.refB + (if forward then 1 else 3)) % 4 →
    let u := examineThreshold { s with line := { s.line with
      refA := a, refB := b, lineCount := if forward then s.line.lineCount + 1 else s.line.lineCount - 1 } }
    ∃ t, exec (.quadratureTransition a b) s = .next t ∧ t.line = u.line ∧
      t.tracker = { u.tracker with entries := t.tracker.entries } ∧ t.host.lineUpdates = u.host.lineUpdates) ∧
  ∀ s : State, s.host.resetLow = false → requestDue .line 0x01 s = true →
    ∃ t, exec .lineSetup s = .next t ∧
      (t.line.params.cutoff = s.line.params.cutoff → t.line = { s.line with params := t.line.params }) ∧
      (t.line.params.cutoff ≠ s.line.params.cutoff →
        t.line = (examineThreshold { s with line := { s.line with params := t.line.params } }).line)

/-- R11, R12, R158: LINE SETUP. A present cutoff or G out of range refuses the whole; else every present value, clamped
where its class is clamped, replaces the stored one, and a changed G empties the run queue. -/
def Obligations.LineSetupIsJudgedAndMerged : Prop :=
  ∀ s : State, s.host.resetLow = false → requestDue .line 0x01 s = true →
    ∃ t, exec .lineSetup s = .next t ∧
      let r := s.lineRequest
      let bad := (∃ n, r.cutoff = some n ∧ ¬ (1000 ≤ n ∧ n ≤ 20000)) ∨ ∃ n, r.gateDelay = some n ∧ ¬ (1 ≤ n ∧ n ≤ 64)
      let clamped := (∃ n, r.preMargin = some n ∧ 50000 < n) ∨ (∃ n, r.postMargin = some n ∧ 50000 < n) ∨
        (∃ n, r.clearance = some n ∧ 2000000 < n) ∨ ∃ n, r.vMin = some n ∧ ¬ (10 ≤ n ∧ n ≤ 1000)
      (bad → Answered .line 0x01 .refusedRange s t ∧ sameOutside (headerBytes .line) s t) ∧
      (¬ bad →
        (clamped → t.header .line = doneHeader 0x01 .acceptedClamped) ∧
        (¬ clamped → t.header .line = doneHeader 0x01 .accepted) ∧
        t.line.params =
          ⟨r.cutoff.getD s.line.params.cutoff, r.gateDelay.getD s.line.params.gateDelay,
            (r.preMargin.map fun n => min n 50000).getD s.line.params.preMargin,
            (r.postMargin.map fun n => min n 50000).getD s.line.params.postMargin,
            (r.clearance.map fun n => min n 2000000).getD s.line.params.clearance,
            (r.vMin.map fun n => max 10 (min n 1000)).getD s.line.params.vMin⟩ ∧
        (t.line.params.cutoff = s.line.params.cutoff →
          t.line = { s.line with params := t.line.params } ∧ t.arbiter = s.arbiter ∧ t.records = s.records ∧
          (∀ i : StandNo, t.stand i = s.stand i) ∧ t.safe = s.safe ∧
          (t.line.params.gateDelay = s.line.params.gateDelay → t.tracker = s.tracker) ∧
          (t.line.params.gateDelay ≠ s.line.params.gateDelay →
            t.tracker = { s.tracker with queue := [], output := t.tracker.output } ∧
            (s.tracker.mode = .normal → t.tracker.output = .divert)) ∧
          sameOutside (headerBytes .line) s t))

/-! ### Stand inputs and outputs (chapter 2) -/

/-- R15, R22, R24: three kinds of conditioned change that only move a level: a change that is no event, the release of a
BREAK input, which may arm the group, and the release of SAFE, which leaves every stand as it is. -/
def Obligations.LevelChangesMoveTheFilterAlone : Prop :=
  ∀ s : State, s.host.resetLow = false →
    (∀ n : ChangedInput, levelOnly s n = true →
      ∃ t, exec (.inputConditionedChange n) s = .next t ∧ (t.input (changedLine n)).level = !(s.input (changedLine n)).level ∧
        t = { s with line := { s.line with cut := t.line.cut }, stands := t.stands } ∧
        (∀ m : Line, m ≠ changedLine n → t.input m = s.input m) ∧
        ∀ i : StandNo, t.stand i = { s.stand i with io := { (s.stand i).io with inputs := (t.stand i).io.inputs } }) ∧
    (∀ (i : StandNo) (k : Fin 4), (s.input (.stand i (.brk k))).level = true →
      ∃ t, exec (.breakRelease i k) s = .next t ∧ (t.input (.stand i (.brk k))).level = false ∧
        (∀ m : Line, m ≠ .stand i (.brk k) → t.input m = s.input m) ∧
        t = { s with stands := t.stands } ∧ (∀ j, j ≠ i → t.stand j = s.stand j) ∧
        t.stand i = { s.stand i with io := { (s.stand i).io with
          inputs := (t.stand i).io.inputs, breakArmed := (t.stand i).io.breakArmed } } ∧
        (t.stand i).io.breakArmed = ((s.stand i).io.breakArmed || !(t.stand i).anyBreakAsserted)) ∧
    (s.safe.level = false → exec .safeRelease s = .next { s with safe := ⟨true, true, true, 0⟩ })

/-- R21, R93: a web break disarms its group, raises WEB_BREAK and has the consequence of its stand's state: none, the loss
of the running record, an abort to IDLE, a winddown turned to IDLE, or the entry to FAULTED. The tracker is not touched. -/
def Obligations.WebBreakByState : Prop :=
  ∀ (i : StandNo) (k : Fin 4) (s : State), s.host.resetLow = false → webBreakDue s i k = true → ClearanceLaw s →
    ∃ t, exec (.webBreak i k) s = .next t ∧
      let e := t.stand i
      (e.io.breakArmed = false ∧ (t.input (.stand i (.brk k))).level = true ∧ t.host.notice.getLsbD 11 = true) ∧
      (t.tracker = s.tracker ∧ t.line = s.line ∧ t.safe = s.safe ∧ t.pending = s.pending) ∧
      (∀ j, j ≠ i → OtherStand s t j) ∧ sameOutside eventBytes s t ∧
      (s.phase i = .idle ∨ s.phase i = .faulted →
        e.seq = (s.stand i).seq ∧ e.running = (s.stand i).running ∧ e.speed = (s.stand i).speed ∧
        t.mem = s.mem ∧ ∀ j, j ≠ i → t.stand j = s.stand j) ∧
      (s.phase i = .running ∨ s.phase i = .prepared ∨ s.phase i = .held →
        t.phase i = .idle ∧ e.running = none ∧ e.ready = (s.stand i).ready ∧ t.records = s.records ∧
        e.spindle = (s.stand i).spindle ∧ ∀ j, j ≠ i → t.stand j = s.stand j) ∧
      ((s.phase i).isAttempt → WoundDown i .webBreak .idle s t ∧ t.arbiter.holder ≠ some i) ∧
      (s.phase i = .winddown → e.seq = { (s.stand i).seq with target := some .idle } ∧ e.speed = (s.stand i).speed ∧
        t.records = s.records ∧ ∀ j, j ≠ i → t.stand j = s.stand j) ∧
      (s.phase i = .pasting ∨ s.phase i = .cutting ∨ s.phase i = .indexing →
        StoppedFaulted i .webBreak s t ∧ t.host.notice.getLsbD 15 = true)

/-- R23, R24, R27, R31, R92: the SAFE assertion raises SAFE, sets every stand's drive reference, pending value and duty to
0 at once, ends the jog holds, and aborts or faults the stands by their states; the gate and the tracker are not
touched. -/
def Obligations.SafeAssertionForcesEveryStand : Prop :=
  ∀ s : State, s.host.resetLow = false → s.safe.level = true → ClearanceLaw s →
    ∃ t, exec .safeAssertion s = .next t ∧ t.safeAsserted = true ∧ t.host.notice.getLsbD 12 = true ∧
      t.tracker = s.tracker ∧ t.line = s.line ∧ t.arbiter.lastNip = s.arbiter.lastNip ∧ t.pending = s.pending ∧
      sameOutside eventBytes s t ∧
      ∀ i : StandNo,
        ((t.stand i).speed.ref = 0 ∧ (t.stand i).io.pendingDuty = 0 ∧ (t.stand i).io.duty = 0 ∧
          (t.stand i).io.driveOut = false ∧ (t.stand i).io.jogDeadline = none ∧
          (t.stand i).io.inputs = (s.stand i).io.inputs ∧ (t.stand i).setup = (s.stand i).setup) ∧
        ((s.phase i).isAttempt ∨ s.phase i = .pasting →
          t.phase i = .winddown ∧ (t.stand i).seq.cause = some .safe ∧ (t.stand i).seq.target = some .held) ∧
        (s.phase i = .cutting ∨ s.phase i = .indexing →
          t.phase i = .faulted ∧ (t.stand i).seq.cause = some .safe ∧ (t.stand i).paste.knife = .idle ∧
          (t.stand i).paste.oneShot = .idle) ∧
        ((s.phase i).isWaiting ∨ s.phase i = .faulted ∨ s.phase i = .winddown → (t.stand i).seq = (s.stand i).seq)

/-- R26: a PWM period starts with the pending value as its duty, and ends its active part after that many µs; neither
touches anything but the stand's duty register, output and next-period time. -/
def Obligations.DriveRefPeriods : Prop :=
  ∀ (i : StandNo) (s : State), s.host.resetLow = false →
    (atOrAfter s.line.usClock (s.stand i).io.nextPeriod = true →
      exec (.driveRefPeriodStart i) s = .next (s.setStand i { s.stand i with io := { (s.stand i).io with
        duty := (s.stand i).io.pendingDuty, driveOut := decide (0 < (s.stand i).io.pendingDuty)
        nextPeriod := (s.stand i).io.nextPeriod + 4000 } })) ∧
    ((s.stand i).io.driveOut = true → (s.stand i).io.duty < 4000 →
      atOrAfter s.line.usClock ((s.stand i).io.nextPeriod - 4000 + BitVec.ofNat 32 (s.stand i).io.duty) = true →
      exec (.driveRefActiveEnd i) s = .next (s.setStand i { s.stand i with io := { (s.stand i).io with
        driveOut := false } }))

/-- R31, R76: a jog hold ends at its deadline, and a PREPARED stand whose start conditions then hold enters
ACCELERATING. -/
def Obligations.JogHoldEndsAtItsDeadline : Prop :=
  ∀ (i : StandNo) (w : Word) (s : State), s.host.resetLow = false → (s.stand i).io.jogDeadline = some w →
    atOrAfter s.line.usClock w = true →
    ∃ t, exec (.jogHoldDeadline i) s = .next t ∧
      let d : Stand := { s.stand i with io := { (s.stand i).io with jogDeadline := none } }
      let starts := s.phase i = .prepared ∧ StartConditions (s.setStand i d) i
      (¬ starts → t = s.setStand i d) ∧
      (starts → FreshAttempt 1 d (t.stand i) ∧ (∀ j, j ≠ i → t.stand j = s.stand j) ∧
        t = { s with stands := t.stands, host := t.host, mem := t.mem } ∧
        t.host = { s.host with notice := withNotices s.host.notice [.standNews i] } ∧
        sameOutside (standRewriteBytes i) s t)

/-- R25, R28 to R30: the outputs of a stand follow its state. SET PHASE LINES stores a value of 0 to 7, which a stand in
MANUAL mode shows at once, and refuses another; JOG INDEX sets the deadline 250,000 µs ahead, with INDEX active, in the
states and at the SAFE level that admit it, and is refused elsewhere. -/
def Obligations.PhaseLineAndJogRequests : Prop :=
  ∀ (i : StandNo) (s : State), s.host.resetLow = false →
    ((s.pasteOut i = true ↔
        (s.phase i = .pasting ∨ s.phase i = .cutting) ∧ (s.stand i).paste.oneShot = .active ∧ s.safeAsserted = false) ∧
      (s.knifeOut i = true ↔
        s.phase i = .cutting ∧ (s.stand i).paste.knife = .active ∧ s.safeAsserted = false) ∧
      (s.indexOut i = true ↔
        (s.phase i = .indexing ∨ (s.stand i).io.jogDeadline ≠ none) ∧ s.safeAsserted = false)) ∧
    (((s.stand i).setup.phaseMode = .manual → s.phaseOut i = (s.stand i).io.manualValue) ∧
      ((s.stand i).setup.phaseMode = .auto →
        (s.phase i = .running ∨ s.phase i = .prepared ∨ s.phase i = .held → s.phaseOut i = (s.stand i).setup.patRun) ∧
        (s.phase i = .accelerating ∨ s.phase i = .matching ∨ s.phase i = .winddown →
          s.phaseOut i = (s.stand i).setup.patAccel) ∧
        (s.phase i = .armed ∨ s.phase i = .pasting ∨ s.phase i = .cutting →
          s.phaseOut i = (s.stand i).setup.patSplice) ∧
        (s.phase i = .indexing → s.phaseOut i = (s.stand i).setup.patIndex) ∧
        (s.phase i = .idle ∨ s.phase i = .faulted → s.phaseOut i = 0))) ∧
    (requestDue (.command i) 0x26 s = true →
      ∃ t, exec (.setPhaseLines i) s = .next t ∧
        let v := (s.slotWord (.command i) 1).toNat
        (v ≤ 7 → Answered (.command i) 0x26 .accepted
          (s.setStand i { s.stand i with io := { (s.stand i).io with manualValue := v } }) t ∧
          t.phaseOut i = (if (s.stand i).setup.phaseMode = .manual then v else s.phaseOut i)) ∧
        (8 ≤ v → Answered (.command i) 0x26 .refusedRange s t) ∧
        sameOutside (fun a => headerBytes (.command i) a ∨ imageBytes i a) s t) ∧
    (requestDue (.command i) 0x24 s = true →
      ∃ t, exec (.jogIndex i) s = .next t ∧
        let admits := ((s.phase i).isWaiting ∨ s.phase i = .faulted) ∧ s.safeAsserted = false
        (admits → Answered (.command i) 0x24 .accepted
          (s.setStand i { s.stand i with io := { (s.stand i).io with
            jogDeadline := some (s.line.usClock + 250000) } }) t ∧ t.indexOut i = true) ∧
        (¬ admits → Answered (.command i) 0x24 .refusedBusy s t) ∧
        sameOutside (fun a => headerBytes (.command i) a ∨ imageBytes i a) s t)

/-! ### Reel records and stand setup (chapter 3) -/

/-- R35, R37, R38: DECLARE RUNNING is refused outside IDLE and for a geometry out of range; accepted, it sets the running
record, gives reel measurement the new reel, and moves the stand to RUNNING, or to PREPARED with a ready record. -/
def Obligations.DeclareRunningIsJudged : Prop :=
  ∀ (i : StandNo) (s : State), s.host.resetLow = false → requestDue (.order i) 0x10 s = true →
    ∃ t, exec (.declareRunning i) s = .next t ∧
      let r := s.reelRequest i
      let d := s.stand i
      let e := t.stand i
      sameOutside (fun a => headerBytes (.order i) a ∨ standRewriteBytes i a) s t ∧
      (∀ j, j ≠ i → t.stand j = s.stand j) ∧
      (s.phase i ≠ .idle → Answered (.order i) 0x10 .refusedBusy s t) ∧
      (s.phase i = .idle → ¬ r.inRange → Answered (.order i) 0x10 .refusedRange s t) ∧
      (s.phase i = .idle → r.inRange →
        t.header (.order i) = doneHeader 0x10 .accepted ∧ e.running = some r ∧ e.ready = d.ready ∧
        e.seq = { d.seq with
          phase := if d.ready.isSome then .prepared else .running
          changes := d.seq.changes + 1, matchDeadline := none, indexDeadline := none, target := none } ∧
        e.spindle = { d.spindle with
          ref := none, cp := none, history := [], rejects := 0, estimate := r.current.getD 0
          validity := if r.current.isSome then .valid else .none
          runoutFlag := decide (∃ c, r.current = some c ∧ c ≤ r.reel.core + 20) } ∧
        (e.setup = d.setup ∧ e.staged = d.staged ∧ e.records = d.records ∧ e.paste = d.paste) ∧
        t = { s with stands := t.stands, host := t.host, mem := t.mem })

/-- R35, R39, R40: LOAD REEL and CANCEL REEL by the stand's state. An accepted LOAD REEL sets the ready record, enters
PREPARED and evaluates the start at once; an accepted CANCEL REEL removes it and enters RUNNING. -/
def Obligations.LoadAndCancelReelAreJudged : Prop :=
  ∀ (i : StandNo) (s : State), s.host.resetLow = false →
    (requestDue (.order i) 0x11 s = true →
      ∃ t, exec (.loadReel i) s = .next t ∧
        let r := (s.reelRequest i).reel
        sameOutside (fun a => headerBytes (.order i) a ∨ standRewriteBytes i a) s t ∧
        (∀ j, j ≠ i → t.stand j = s.stand j) ∧
        (s.phase i = .idle → Answered (.order i) 0x11 .refusedNoReel s t) ∧
        (s.phase i = .prepared ∨ s.phase i = .held → Answered (.order i) 0x11 .refusedReelPresent s t) ∧
        (¬ (s.phase i).isWaiting → Answered (.order i) 0x11 .refusedBusy s t) ∧
        (s.phase i = .running → ¬ r.inRange → Answered (.order i) 0x11 .refusedRange s t) ∧
        (s.phase i = .running → r.inRange →
          t.header (.order i) = doneHeader 0x11 .accepted ∧ (t.stand i).ready = some r ∧
          (t.stand i).running = (s.stand i).running ∧
          (StartConditions s i → FreshAttempt 2 (s.stand i) (t.stand i)) ∧
          (¬ StartConditions s i → t.phase i = .prepared ∧
            (t.stand i).seq.changes = (s.stand i).seq.changes + 1 ∧ (t.stand i).spindle = (s.stand i).spindle))) ∧
    (requestDue (.order i) 0x12 s = true →
      ∃ t, exec (.cancelReel i) s = .next t ∧
        sameOutside (fun a => headerBytes (.order i) a ∨ standRewriteBytes i a) s t ∧
        (∀ j, j ≠ i → t.stand j = s.stand j) ∧
        (s.phase i = .idle ∨ s.phase i = .running → Answered (.order i) 0x12 .refusedNoReel s t) ∧
        (¬ (s.phase i).isWaiting → Answered (.order i) 0x12 .refusedBusy s t) ∧
        (s.phase i = .prepared ∨ s.phase i = .held →
          t.header (.order i) = doneHeader 0x12 .accepted ∧ t.phase i = .running ∧ (t.stand i).ready = none ∧
          (t.stand i).running = (s.stand i).running ∧
          (t.stand i).seq.changes = (s.stand i).seq.changes + 1 ∧ (t.stand i).spindle = (s.stand i).spindle ∧
          (t.stand i).io.jogDeadline = (s.stand i).io.jogDeadline))

/-- R42 to R46, R16, R22: STAND SETUP is refused in the splice states, for a refused-class field out of the range of R41,
and for a direct change of an edge select between RISE and FALL outside IDLE; accepted, it puts every present field, clamped
where its class is clamped, in place of the stored one, and hands on the filter rate and the break enables. -/
def Obligations.StandSetupIsJudgedAndMerged : Prop :=
  ∀ (i : StandNo) (s : State), s.host.resetLow = false → requestDue (.order i) 0x13 s = true →
    ∃ t, exec (.standSetup i) s = .next t ∧
      let r := s.setupRequest i
      let u := (s.stand i).setup
      let above (top : Nat) (x : Option Nat) : Prop := ∃ n, x = some n ∧ top < n
      let outside (low top : Nat) (x : Option Nat) : Prop := ∃ n, x = some n ∧ ¬ (low ≤ n ∧ n ≤ top)
      let put (low top stored : Nat) (x : Option Nat) : Nat := (x.map fun n => max low (min n top)).getD stored
      let edgeOf (stored : EdgeSelect) (x : Option Nat) : EdgeSelect :=
        (x.map fun n => if n = 0 then EdgeSelect.none else if n = 1 then .rise else .fall).getD stored
      let switchOf (stored : Bool) (x : Option Nat) : Bool := (x.map fun n => decide (n = 1)).getD stored
      let turned (x y : EdgeSelect) : Prop := x = .rise ∧ y = .fall ∨ x = .fall ∧ y = .rise
      let merged : Setup :=
        { pathLength := r.pathLength.getD u.pathLength, zoneLength := put 0 20000 u.zoneLength r.zoneLength
          theta := r.theta.getD u.theta, tAct := put 0 500000 u.tAct r.tAct, dwell := put 0 200000 u.dwell r.dwell
          knifeDelay := put 0 200000 u.knifeDelay r.knifeDelay, knifeWidth := put 1000 200000 u.knifeWidth r.knifeWidth
          tAcc := put 1000 60000 u.tAcc r.tAcc, tSettle := put 0 30000 u.tSettle r.tSettle
          window := put 1 50 u.window r.window, offset := (r.offset.map fun x => max (-20) (min x 20)).getD u.offset
          tMatch := put 2000 60000 u.tMatch r.tMatch
          rate := (r.rate.map fun n => if n = 0 then FilterRate.fast else .slow).getD u.rate
          edgeSpindle := edgeOf u.edgeSpindle r.edgeSpindle, edgeTab := edgeOf u.edgeTab r.edgeTab
          edgeHome := edgeOf u.edgeHome r.edgeHome
          tabSelect := (r.tabSelect.map fun n => if n = 0 then TabSelect.a else .b).getD u.tabSelect
          seeThrough := switchOf u.seeThrough r.seeThrough
          breakEnable := #v[switchOf u.breakEnable[0] r.break1, switchOf u.breakEnable[1] r.break2,
            switchOf u.breakEnable[2] r.break3, switchOf u.breakEnable[3] r.break4]
          phaseMode := (r.phaseMode.map fun n => if n = 0 then PhaseMode.auto else .manual).getD u.phaseMode
          patRun := r.patRun.getD u.patRun, patAccel := r.patAccel.getD u.patAccel
          patSplice := r.patSplice.getD u.patSplice, patIndex := r.patIndex.getD u.patIndex }
      let busy := ¬ ((s.phase i).isWaiting ∨ s.phase i = .faulted)
      let bad := above 2000000 r.pathLength ∨ above 4095 r.theta ∨ above 1 r.rate ∨ above 2 r.edgeSpindle ∨
        above 2 r.edgeTab ∨ above 2 r.edgeHome ∨ above 1 r.tabSelect ∨ above 1 r.seeThrough ∨ above 1 r.break1 ∨
        above 1 r.break2 ∨ above 1 r.break3 ∨ above 1 r.break4 ∨ above 1 r.phaseMode ∨ above 7 r.patRun ∨
        above 7 r.patAccel ∨ above 7 r.patSplice ∨ above 7 r.patIndex
      let edge := s.phase i ≠ .idle ∧
        (turned u.edgeSpindle merged.edgeSpindle ∨ turned u.edgeTab merged.edgeTab ∨ turned u.edgeHome merged.edgeHome)
      let clamped := outside 0 20000 r.zoneLength ∨ outside 0 500000 r.tAct ∨ outside 0 200000 r.dwell ∨
        outside 0 200000 r.knifeDelay ∨ outside 1000 200000 r.knifeWidth ∨ outside 1000 60000 r.tAcc ∨
        outside 0 30000 r.tSettle ∨ outside 1 50 r.window ∨ (∃ x, r.offset = some x ∧ ¬ (-20 ≤ x ∧ x ≤ 20)) ∨
        outside 2000 60000 r.tMatch
      let e := t.stand i
      sameOutside (fun a => headerBytes (.order i) a ∨ imageBytes i a) s t ∧
      (busy → Answered (.order i) 0x13 .refusedBusy s t) ∧
      (¬ busy → bad → Answered (.order i) 0x13 .refusedRange s t) ∧
      (¬ busy → ¬ bad → edge → Answered (.order i) 0x13 .refusedEdgeOrder s t) ∧
      (¬ busy → ¬ bad → ¬ edge →
        (∀ res, (clamped → res = .acceptedClamped) → (¬ clamped → res = .accepted) →
          Answered (.order i) 0x13 res
            (s.setStand i { s.stand i with
              setup := merged
              io := { (s.stand i).io with inputs := e.io.inputs, breakArmed := e.io.breakArmed } }) t) ∧
        (e.setup.rate = u.rate → e.io.inputs = (s.stand i).io.inputs) ∧
        (e.setup.rate ≠ u.rate → ∀ n : StandInput,
          e.io.inputs.get n = { (s.stand i).io.inputs.get n with count := 0 }) ∧
        (e.setup.breakEnable = u.breakEnable → e.io.breakArmed = (s.stand i).io.breakArmed) ∧
        (e.setup.breakEnable ≠ u.breakEnable → e.io.breakArmed = !e.anyBreakAsserted))

/-! ### Reel measurement (chapter 4) -/

/-- R17, R53 to R56, R58, R59, R76: a spindle mark is discarded outside the measuring states; it only moves the reference when
there was none or the web has not moved on; else C is judged, and stored, halved or rejected, with the loss at the fourth
rejection in a row. RUNOUT is raised exactly where the runout flag is newly set, and a stored value evaluates the automatic
start of a PREPARED stand. -/
def Obligations.SpindleMarkIsMeasured : Prop :=
  ∀ (i : StandNo) (s : State), s.host.resetLow = false → spindleMarkDue s i = true →
    ∃ t, exec (.spindleMark i) s = .next t ∧
      let x := (s.stand i).spindle
      let y := (t.stand i).spindle
      let c := s.line.lineCount
      let measured : Stand := { s.stand i with
        spindle := y, io := { (s.stand i).io with inputs := (t.stand i).io.inputs } }
      let starts := s.phase i = .prepared ∧ StartConditions (s.setStand i measured) i
      let stored (v : Nat) (x' : SpindleSide) : Prop :=
        StoredRevolution v x' y ∧ y.ref = some c ∧ y.rejected = x.rejected ∧
        y.runoutFlag = (x.runoutFlag || (s.stand i).running.any fun r => y.estimate ≤ r.reel.core + 20) ∧
        (starts → FreshAttempt 1 measured (t.stand i)) ∧
        (¬ starts → t.stand i = { measured with
          updateCount := (t.stand i).updateCount, imageCount := (t.stand i).imageCount })
      let rejected : Prop :=
        y = { x with
          ref := some c, rejected := if x.rejected < 4294967295 then x.rejected + 1 else x.rejected
          rejects := if x.rejects < 65535 then x.rejects + 1 else x.rejects
          validity := if x.rejects = 3 then .lost else x.validity } ∧
        (t.stand i).seq = (s.stand i).seq ∧ (x.rejects = 3 → t.host.notice.getLsbD 14 = true)
      (t.input (.stand i .spindle)).level = !(s.input (.stand i .spindle)).level ∧
      t.host.notice.getLsbD 13 = (s.host.notice.getLsbD 13 || !x.runoutFlag && y.runoutFlag) ∧
      (∀ j, j ≠ i → t.stand j = s.stand j) ∧
      t = { s with stands := t.stands, host := t.host, mem := t.mem } ∧
      t.host = { s.host with notice := t.host.notice } ∧ sameOutside (standRewriteBytes i) s t ∧
      ((t.stand i).setup = (s.stand i).setup ∧ (t.stand i).running = (s.stand i).running ∧
        (t.stand i).ready = (s.stand i).ready ∧ (t.stand i).paste.oneShot = (s.stand i).paste.oneShot) ∧
      ((s.phase i).isMeasuring = false → y = x ∧ t.mem = s.mem ∧ (t.stand i).seq = (s.stand i).seq) ∧
      ((s.phase i).isMeasuring = true →
        ((x.ref = none ∨ ∃ r, x.ref = some r ∧ atOrAfter c (r + 1) = false) →
          y = { x with ref := some c } ∧ (t.stand i).seq = (s.stand i).seq) ∧
        ∀ r, x.ref = some r → atOrAfter c (r + 1) = true →
          let cc := (c - r).toNat
          let ee := roundDiv (x.estimate * 31416) 10000
          (x.validity = .none → stored cc x) ∧
          (x.validity = .lost → stored cc { x with history := [] }) ∧
          (x.validity = .valid → x.history = [] →
            (4 * ee ≤ 5 * cc ∧ 5 * cc ≤ 6 * ee → stored cc x) ∧
            (¬ (4 * ee ≤ 5 * cc ∧ 5 * cc ≤ 6 * ee) → rejected)) ∧
          (x.validity = .valid → x.history ≠ [] → ∀ cp, x.cp = some cp →
            (9 * cp ≤ 10 * cc ∧ 10 * cc ≤ 11 * cp → stored cc x ∧ y.corrected = x.corrected) ∧
            (¬ (9 * cp ≤ 10 * cc ∧ 10 * cc ≤ 11 * cp) → 7 * cp ≤ 4 * cc ∧ 4 * cc ≤ 9 * cp →
              stored (roundDiv cc 2) x ∧
              y.corrected = if x.corrected < 4294967295 then x.corrected + 1 else x.corrected) ∧
            (¬ (9 * cp ≤ 10 * cc ∧ 10 * cc ≤ 11 * cp) → ¬ (7 * cp ≤ 4 * cc ∧ 4 * cc ≤ 9 * cp) → rejected)))

/-- R64, R65, R66: a tab mark outside MATCHING and ARMED. ACCELERATING captures without tests; PASTING, CUTTING and
INDEXING judge and count; the other states discard. No other field of any stand moves. -/
def Obligations.TabMarkOutsideMatching : Prop :=
  ∀ (i : StandNo) (s : State), s.host.resetLow = false → tabMarkDue s i = true →
    s.phase i ≠ .matching → s.phase i ≠ .armed →
    ∃ t, exec (.tabMark i) s = .next t ∧
      let x := (s.stand i).tab
      let y := (t.stand i).tab
      let m := s.line.usClock
      let c := s.line.lineCount
      let cOf (l : TabStamp) : Nat := if atOrAfter c l.count then (c - l.count).toNat else 0
      t = { s with stands := t.stands } ∧ (∀ j, j ≠ i → t.stand j = s.stand j) ∧
      t.stand i = { s.stand i with tab := y, io := { (s.stand i).io with inputs := (t.stand i).io.inputs } } ∧
      (∀ n : Line, n ≠ .stand i (s.stand i).selectedTab → t.input n = s.input n) ∧
      ((s.phase i).isWaiting ∨ s.phase i = .winddown ∨ s.phase i = .faulted → y = x) ∧
      (x.last = none → s.phase i = .accelerating ∨ s.phase i = .pasting ∨ s.phase i = .cutting ∨ s.phase i = .indexing →
        y = { x with last := some ⟨m, c⟩ }) ∧
      (s.phase i = .accelerating → ∀ l, x.last = some l →
        y = { x with
          last := some ⟨m, c⟩, p := some (m - l.time).toNat, pp := some (m - l.time).toNat, cTab := some (cOf l) }) ∧
      (s.phase i = .pasting ∨ s.phase i = .cutting ∨ s.phase i = .indexing → ∀ l pp, x.last = some l → x.pp = some pp →
        let p := (m - l.time).toNat
        let good := p ≤ 4000000 ∧ 9 * pp ≤ 10 * p ∧ 10 * p ≤ 11 * pp
        let half := p ≤ 4000000 ∧ 7 * pp ≤ 4 * p ∧ 4 * p ≤ 9 * pp
        (good → y = { x with last := some ⟨m, c⟩, p := some p, cTab := some (cOf l), pp := some p, rejects := 0 }) ∧
        (¬ good → half → y = { x with
          last := some ⟨m, c⟩, p := some (roundDiv p 2), cTab := some (roundDiv (cOf l) 2), pp := some (roundDiv p 2)
          rejects := 0, corrected := if x.corrected < 4294967295 then x.corrected + 1 else x.corrected }) ∧
        (¬ good → ¬ half → y = { x with
          last := some ⟨m, c⟩, p := some p, cTab := some (cOf l)
          rejected := if x.rejected < 4294967295 then x.rejected + 1 else x.rejected
          rejects := if x.rejects < 65535 then x.rejects + 1 else x.rejects }))

/-- R66 to R69, R103, R104, R106, R117, R134: a tab mark of MATCHING with a last mark and a period before it. A rejected
mark is tolerated once and the second ends the attempt with MARK_LOST; an accepted or corrected one takes in the staged
set and evaluates the revolution: dev, match count, trim, and the request entered or withdrawn. -/
def Obligations.TabMarkInMatching : Prop :=
  ∀ (i : StandNo) (s : State) (l : TabStamp) (pp : Nat) (reel : Reel), s.host.resetLow = false →
    tabMarkDue s i = true → s.phase i = .matching → (s.stand i).tab.last = some l → (s.stand i).tab.pp = some pp →
    (s.stand i).ready = some reel → ClearanceLaw s →
    ∃ t, exec (.tabMark i) s = .next t ∧
      let d := s.stand i
      let e := t.stand i
      let m := s.line.usClock
      let c := s.line.lineCount
      let p := (m - l.time).toNat
      let ct := if atOrAfter c l.count then (c - l.count).toNat else 0
      let good := p ≤ 4000000 ∧ 9 * pp ≤ 10 * p ∧ 10 * p ≤ 11 * pp
      let half := p ≤ 4000000 ∧ 7 * pp ≤ 4 * p ∧ 4 * p ≤ 9 * pp
      (t.tracker = s.tracker ∧ t.line = s.line ∧ t.safe = s.safe ∧ t.pending = s.pending ∧
        e.running = d.running ∧ e.ready = d.ready ∧ e.spindle = d.spindle) ∧
      (∀ j, j ≠ i → OtherStand s t j) ∧ sameOutside eventBytes s t ∧ e.tab.last = some ⟨m, c⟩ ∧
      (¬ good → ¬ half → d.tab.rejects = 1 →
        t.phase i = .winddown ∧ e.seq.cause = some .markLost ∧ e.seq.target = some .held ∧ e.tab.deadline = none) ∧
      (¬ good → ¬ half → d.tab.rejects = 0 →
        e.seq = d.seq ∧ e.speed = d.speed ∧ e.setup = d.setup ∧ e.staged = d.staged ∧ t.arbiter = s.arbiter ∧
        e.tab.rejects = 1 ∧ e.tab.pp = some pp ∧ e.tab.deadline = some (m + BitVec.ofNat 32 (2 * pp))) ∧
      (good ∨ half →
        let p' := if good then p else roundDiv p 2
        let c' := if good then ct else roundDiv ct 2
        let dev := clampInt (-999) 999 (roundDivInt (((roundDiv (reel.dFull * 31416) 10000 : Nat) - (c' : Int)) * 1000) c')
        let err := dev - d.setup.offset
        let inWindow := -(d.setup.window : Int) ≤ err ∧ err ≤ d.setup.window
        let count := if inWindow then min (d.speed.matchCount + 1) 3 else 0
        e.tab.p = some p' ∧ e.tab.cTab = some c' ∧ e.tab.pp = some p' ∧ e.tab.rejects = 0 ∧
        e.staged = ⟨none, none, none, none, none⟩ ∧
        e.setup = { d.setup with
          theta := d.staged.theta.getD d.setup.theta, tAct := d.staged.tAct.getD d.setup.tAct
          dwell := d.staged.dwell.getD d.setup.dwell, knifeDelay := d.staged.knifeDelay.getD d.setup.knifeDelay
          knifeWidth := d.staged.knifeWidth.getD d.setup.knifeWidth } ∧
        (c' = 0 → e.speed = d.speed ∧ t.arbiter = s.arbiter ∧ e.seq = d.seq) ∧
        (c' ≠ 0 → d.speed.matchCount ≤ 3 →
          e.speed = { d.speed with
            lastDev := some dev, matchCount := count
            trim := clampInt (-100) 100 (d.speed.trim - Int.tdiv err 2) } ∧
          (count = 3 → d.speed.matchCount = 2 →
            t.phase i = .armed ∧ t.arbiter.holder = some i ∨
            t.phase i = .matching ∧ t.arbiter.requested i = true) ∧
          (count = 0 → t.arbiter.requested i = false ∧ t.phase i = .matching) ∧
          (count = d.speed.matchCount → t.arbiter = s.arbiter ∧ e.seq = d.seq)))

/-- R83, R103, R105, R106, R117, R119, R120: the arming mark. The revolution is evaluated, with dev, match count and trim
as in MATCHING and without an effect on the clearance. The mark takes in the staged set and gives the fire point of its period: in
range, the stand is PASTING with fire time, nip time, k and dwell end committed, or past its nip where both times are the
mark's own; out of range, the attempt ends with TIMING_RANGE and the clearance is released. -/
def Obligations.ArmingMarkCommitsTheFirePoint : Prop :=
  ∀ (i : StandNo) (s : State) (l : TabStamp) (pp : Nat), s.host.resetLow = false → tabMarkDue s i = true →
    s.phase i = .armed → (s.stand i).tab.last = some l → (s.stand i).tab.pp = some pp → BoundsLaw s → ClearanceLaw s →
    let d := s.stand i
    let m := s.line.usClock
    let p := (m - l.time).toNat
    let good := p ≤ 4000000 ∧ 9 * pp ≤ 10 * p ∧ 10 * p ≤ 11 * pp
    let half := p ≤ 4000000 ∧ 7 * pp ≤ 4 * p ∧ 4 * p ≤ 9 * pp
    good ∨ half →
    ∃ t, exec (.tabMark i) s = .next t ∧
      let e := t.stand i
      let p' := if good then p else roundDiv p 2
      let theta := d.staged.theta.getD d.setup.theta
      let tAct := d.staged.tAct.getD d.setup.tAct
      let tNip := theta * p' / 4096
      let ct := if atOrAfter s.line.lineCount l.count then (s.line.lineCount - l.count).toNat else 0
      let c' := if good then ct else roundDiv ct 2
      let fires (k : Fin 2) (fire nip : Nat) : Prop :=
        e.seq.attempt.k = some k ∧ e.seq.attempt.fireTime = some (m + BitVec.ofNat 32 fire) ∧
        e.seq.attempt.nipTime = some (m + BitVec.ofNat 32 nip) ∧
        (0 < nip →
          t.phase i = .pasting ∧ e.paste.oneShot = (if fire = 0 then .active else .delay) ∧
          e.paste.dwellEnd = some (m + BitVec.ofNat 32 nip + BitVec.ofNat 32 e.setup.dwell) ∧
          t.arbiter = s.arbiter ∧ e.seq.changes = d.seq.changes + 1) ∧
        (nip = 0 → t.phase i = .cutting ∧ e.paste.oneShot = .active ∧ e.seq.changes = d.seq.changes + 2)
      e.staged = ⟨none, none, none, none, none⟩ ∧ e.setup.theta = theta ∧ e.setup.tAct = tAct ∧
      (tAct ≤ tNip → fires 0 (tNip - tAct) tNip) ∧
      (tNip < tAct → tAct ≤ tNip + p' → fires 1 (tNip + p' - tAct) (p' + tNip)) ∧
      (tNip + p' < tAct →
        t.phase i = .winddown ∧ e.seq.cause = some .timingRange ∧ e.seq.target = some .held ∧
        t.arbiter.holder ≠ some i ∧ e.seq.attempt = d.seq.attempt) ∧
      (c' = 0 → e.speed.lastDev = d.speed.lastDev ∧ e.speed.trim = d.speed.trim ∧
        (tAct ≤ tNip + p' → e.speed.matchCount = d.speed.matchCount)) ∧
      (c' ≠ 0 → ∀ reel, d.ready = some reel →
        let dev := clampInt (-999) 999 (roundDivInt (((roundDiv (reel.dFull * 31416) 10000 : Nat) - (c' : Int)) * 1000) c')
        let err := dev - d.setup.offset
        let inWindow := -(d.setup.window : Int) ≤ err ∧ err ≤ d.setup.window
        e.speed.lastDev = some dev ∧ e.speed.trim = clampInt (-100) 100 (d.speed.trim - Int.tdiv err 2) ∧
        (tAct ≤ tNip + p' → e.speed.matchCount = if inWindow then min (d.speed.matchCount + 1) 3 else 0))

/-! ### The splice sequence (chapter 5) -/

/-- R75, R76, R80: the automatic start is evaluated in PREPARED alone, and there it enters ACCELERATING exactly where the
six conditions hold. -/
def Obligations.AutomaticStart : Prop :=
  ∀ (i : StandNo) (s : State),
    (¬ (s.phase i = .prepared ∧ StartConditions s i) → evaluateStart i s = s) ∧
    (s.phase i = .prepared → StartConditions s i →
      FreshAttempt 1 (s.stand i) ((evaluateStart i s).stand i) ∧
      (∀ j, j ≠ i → (evaluateStart i s).stand j = s.stand j) ∧ (evaluateStart i s).arbiter = s.arbiter ∧
      (evaluateStart i s).line = s.line)

/-- R78, R79: SPLICE NOW and RESUME by the stand's state and the line. -/
def Obligations.SpliceNowAndResumeAreJudged : Prop :=
  ∀ (i : StandNo) (s : State), s.host.resetLow = false →
    let ready := s.phase i = .prepared ∨ s.phase i = .held
    let noReel := s.phase i = .idle ∨ s.phase i = .running
    let bytes := fun a => headerBytes (.command i) a ∨ standRewriteBytes i a
    (requestDue (.command i) 0x20 s = true →
      ∃ t, exec (.spliceNow i) s = .next t ∧ sameOutside bytes s t ∧ (∀ j, j ≠ i → t.stand j = s.stand j) ∧
        let line := s.line.vLine < s.line.params.vMin ∨ s.line.encoderFault = true ∨ s.safeAsserted = true
        (noReel → Answered (.command i) 0x20 .refusedNoReel s t) ∧
        (¬ ready → ¬ noReel → Answered (.command i) 0x20 .refusedBusy s t) ∧
        (ready → line → Answered (.command i) 0x20 .refusedLine s t) ∧
        (ready → ¬ line →
          t.header (.command i) = doneHeader 0x20 .accepted ∧ FreshAttempt 1 (s.stand i) (t.stand i) ∧
          (t.stand i).spindle = (s.stand i).spindle ∧ (t.stand i).ready = (s.stand i).ready)) ∧
    (requestDue (.command i) 0x22 s = true →
      ∃ t, exec (.resume i) s = .next t ∧ sameOutside bytes s t ∧ (∀ j, j ≠ i → t.stand j = s.stand j) ∧
        (noReel → Answered (.command i) 0x22 .refusedNoReel s t) ∧
        (¬ ready → ¬ noReel → Answered (.command i) 0x22 .refusedBusy s t) ∧
        (s.phase i = .prepared → Answered (.command i) 0x22 .accepted s t) ∧
        (s.phase i = .held →
          t.header (.command i) = doneHeader 0x22 .accepted ∧
          (StartConditions s i → FreshAttempt 2 (s.stand i) (t.stand i)) ∧
          (¬ StartConditions s i → t.phase i = .prepared ∧
            (t.stand i).seq.changes = (s.stand i).seq.changes + 1 ∧ (t.stand i).speed.ref = 0)))

/-- R88, R90: ABORT. In an attempt state the attempt is wound down to HELD with cause HOST_ABORT, its request and its
clearance given back with the last nip unchanged; in every other state it is refused. -/
def Obligations.AbortIsJudged : Prop :=
  ∀ (i : StandNo) (s : State), s.host.resetLow = false → requestDue (.command i) 0x21 s = true →
    ∃ t, exec (.abort i) s = .next t ∧
      sameOutside (fun a => headerBytes (.command i) a ∨ eventBytes a) s t ∧ (∀ j, j ≠ i → OtherStand s t j) ∧
      (s.phase i = .pasting ∨ s.phase i = .cutting ∨ s.phase i = .indexing ∨ s.phase i = .winddown ∨
        s.phase i = .faulted → Answered (.command i) 0x21 .refusedBusy s t) ∧
      ((s.phase i).isWaiting → Answered (.command i) 0x21 .refusedNoReel s t) ∧
      ((s.phase i).isAttempt →
        t.header (.command i) = doneHeader 0x21 .accepted ∧ WoundDown i .hostAbort .held s t ∧
        t.arbiter.requested i = false ∧ t.arbiter.holder ≠ some i ∧ t.arbiter.lastNip = s.arbiter.lastNip ∧
        t.arbiter.lastNipValid = s.arbiter.lastNipValid ∧ t.tracker = s.tracker ∧
        t.records.nextSerial = serialAfter s.records.nextSerial)

/-- R95, R51, R71, R112, R132: STAND RESET from any state: IDLE with both records absent and the setup set kept, the
measurement's totals kept, drive and timers at rest; the cause is STAND_RESET where a splice was in progress, and none
elsewhere. In IDLE no change of state is counted: MODEL'S CHOICE (log entry 12). -/
def Obligations.StandResetReturnsToIdle : Prop :=
  ∀ (i : StandNo) (s : State), s.host.resetLow = false → requestDue (.command i) 0x23 s = true →
    ∃ t, exec (.standReset i) s = .next t ∧ t.header (.command i) = doneHeader 0x23 .accepted ∧
      sameOutside (fun a => headerBytes (.command i) a ∨ eventBytes a) s t ∧ (∀ j, j ≠ i → OtherStand s t j) ∧
      let d := s.stand i
      let e := t.stand i
      let splice := (s.phase i).isAttempt ∨ s.phase i = .pasting ∨ s.phase i = .cutting ∨ s.phase i = .indexing
      e.seq = ⟨.idle, d.seq.changes + (if s.phase i = .idle then 0 else 1),
        if (s.phase i).inSplice then some .standReset else none, none, none, none, ⟨none, none, none, none, none⟩⟩ ∧
      ((s.phase i).inSplice = true ↔ splice) ∧
      e.running = none ∧ e.ready = none ∧ e.setup = d.setup ∧ e.staged = ⟨none, none, none, none, none⟩ ∧
      e.spindle = ⟨none, none, [], 0, .none, 0, false, d.spindle.corrected, d.spindle.rejected⟩ ∧
      e.tab = ⟨none, none, none, none, 0, none, d.tab.corrected, d.tab.rejected⟩ ∧
      e.speed = ⟨0, 0, 0, 0, none, 0, false, none⟩ ∧ e.paste = ⟨.idle, none, .idle, none, false⟩ ∧
      e.io = { d.io with jogDeadline := none, duty := 0, pendingDuty := 0, driveOut := false } ∧
      t.tracker = s.tracker ∧ t.line = s.line ∧
      ((s.phase i).isAttempt ∨ s.phase i = .pasting →
        t.records.nextSerial = serialAfter s.records.nextSerial ∧ t.arbiter.requested i = false ∧
        t.arbiter.holder ≠ some i) ∧
      (¬ splice → t.records = s.records ∧ e.records = d.records ∧ t.arbiter = s.arbiter)

/-- R69, R82, R87, R91, R94, R169: the deadlines of a stand. The match deadline and the tab deadline wind the attempt down
with their causes and consume a serial for the ABORTED record; the index deadline faults the stand and closes its open
record FAULT_AFTER_NIP, which then waits or stands in the table; without an open record none is closed. -/
def Obligations.DeadlinesEndTheirStates : Prop :=
  ∀ (i : StandNo) (w : Word) (s : State), s.host.resetLow = false → atOrAfter s.line.usClock w = true →
    (s.phase i = .matching → (s.stand i).seq.matchDeadline = some w →
      ∃ t, exec (.matchDeadline i) s = .next t ∧ WoundDown i .matchTimeout .held s t ∧ t.tracker = s.tracker ∧
        t.arbiter.requested i = false ∧ t.records.nextSerial = serialAfter s.records.nextSerial ∧
        t.line = s.line ∧ (∀ j, j ≠ i → OtherStand s t j) ∧ sameOutside eventBytes s t) ∧
    (s.phase i = .matching ∨ s.phase i = .armed → (s.stand i).tab.deadline = some w →
      ∃ t, exec (.tabDeadline i) s = .next t ∧ WoundDown i .markLost .held s t ∧ t.tracker = s.tracker ∧
        t.arbiter.requested i = false ∧ t.records.nextSerial = serialAfter s.records.nextSerial ∧
        t.arbiter.holder ≠ some i ∧ t.line = s.line ∧ (∀ j, j ≠ i → OtherStand s t j) ∧ sameOutside eventBytes s t) ∧
    (s.phase i = .indexing → (s.stand i).seq.indexDeadline = some w →
      ∃ t, exec (.indexDeadline i) s = .next t ∧ StoppedFaulted i .indexTimeout s t ∧ t.host.notice.getLsbD 15 = true ∧
        t.arbiter = s.arbiter ∧ t.tracker = s.tracker ∧ t.line = s.line ∧ (∀ j, j ≠ i → OtherStand s t j) ∧
        sameOutside eventBytes s t ∧ t.records.nextSerial = s.records.nextSerial ∧
        let kept := (s.stand i).records
        let after := (t.stand i).records
        (∀ q, kept.pending = some q → q.phase = .open →
          let closed : SpliceRecord := { q.record with outcome := some .faultAfterNip, cause := some .indexTimeout }
          (after = { kept with pending := some ⟨closed, .waiting⟩ } ∧ t.host.notice.getLsbD 4 = true) ∨
          (i ∈ s.records.order ∧ after = { kept with pending := none } ∧ t.host.notice.getLsbD 1 = true ∧
            ∃ k, k < 32 ∧ entryState s.mem k = 0 ∧ ∀ n, n < 12 →
              t.mem.readWord (recordBase k + 4 * n) = (recordWords i closed).getD n 0)) ∧
        ((∀ q, kept.pending = some q → q.phase ≠ .open) → after = kept ∧ t.records = s.records))

/-- R86, R60, R74: an INDEX HOME mark completes the index of an INDEXING stand: the ready reel runs, reel measurement takes
it up without a runout check, the open record is closed COMPLETE, and the stand is RUNNING. Elsewhere only the input's
level changes. -/
def Obligations.IndexHomeMakesTheReadyReelRun : Prop :=
  ∀ (i : StandNo) (s : State), s.host.resetLow = false → homeMarkDue s i = true →
    ∃ t, exec (.indexHomeMark i) s = .next t ∧
      let d := s.stand i
      let e := t.stand i
      (t.input (.stand i .indexHome)).level = !(s.input (.stand i .indexHome)).level ∧
      (s.phase i ≠ .indexing →
        t = s.setStand i { d with io := { d.io with inputs := e.io.inputs } }) ∧
      (s.phase i = .indexing → ∀ reel, d.ready = some reel →
        e.running = some ⟨reel, none⟩ ∧ e.ready = none ∧
        e.spindle = ⟨none, none, [], reel.dFull, .valid, 0, false, d.spindle.corrected, d.spindle.rejected⟩ ∧
        e.seq = { d.seq with
          phase := .running, changes := d.seq.changes + 1, matchDeadline := none, indexDeadline := none
          target := none } ∧
        e.speed.ref = 0 ∧ e.tab = { d.tab with deadline := none } ∧ e.setup = d.setup ∧ e.staged = d.staged ∧
        t.host.notice.getLsbD 13 = s.host.notice.getLsbD 13 ∧
        t.arbiter = s.arbiter ∧ t.tracker = s.tracker ∧ t.line = s.line ∧ (∀ j, j ≠ i → OtherStand s t j) ∧
        sameOutside eventBytes s t ∧
        (∀ q, d.records.pending = some q → q.phase = .open →
          (e.records.pending = some ⟨{ q.record with outcome := some .complete, cause := none }, .waiting⟩ ∧
            t.host.notice.getLsbD 4 = true) ∨
          (i ∈ s.records.order ∧ e.records.pending = none ∧ t.host.notice.getLsbD 1 = true)))

/-! ### Paste and knife timing (chapter 7) -/

/-- R121, R122, R127 to R129: the timers of a stand's paste timing. The fire time takes the one-shot to ACTIVE, the dwell
end back to IDLE; the knife-late deadline sets its flags and starts the knife; the knife end moves the stand to
INDEXING. -/
def Obligations.PasteTimersRun : Prop :=
  ∀ (i : StandNo) (w : Word) (s : State), s.host.resetLow = false → atOrAfter s.line.usClock w = true →
    let d := s.stand i
    (s.phase i = .pasting → d.paste.oneShot = .delay → d.seq.attempt.fireTime = some w →
      exec (.fireTime i) s = .next (s.setStand i { d with paste := { d.paste with oneShot := .active } })) ∧
    (s.phase i = .cutting → d.paste.oneShot = .active → d.paste.dwellEnd = some w →
      exec (.dwellEnd i) s = .next (s.setStand i { d with paste := { d.paste with
        oneShot := .idle, dwellEnd := none } })) ∧
    (s.phase i = .cutting → d.paste.knife = .wait → d.seq.attempt.knifeLate = some w →
      exec (.knifeLateDeadline i) s = .next (s.setStand i { d with
        paste := { d.paste with
          knifeLateFlag := true, knife := .active
          knifeEnd := some (s.line.usClock + BitVec.ofNat 32 d.setup.knifeWidth) }
        seq := { d.seq with attempt := { d.seq.attempt with knifeLate := none } }
        speed := { d.speed with ref := 0, frozen := false }
        io := { d.io with pendingDuty := 0 }
        records := { d.records with pending := d.records.pending.map fun q =>
          if q.phase = .open then { q with record := { q.record with knifeLate := true } } else q } })) ∧
    (s.phase i = .cutting → d.paste.knife = .active → d.paste.knifeEnd = some w →
      ∃ t, exec (.knifeEnd i) s = .next t ∧
        StandChanged i 1 [.standNews i]
          { d with
            paste := { d.paste with oneShot := .idle, dwellEnd := none, knife := .idle, knifeEnd := none }
            seq := { d.seq with
              phase := .indexing, changes := d.seq.changes + 1, matchDeadline := none, target := none
              indexDeadline := some (s.line.usClock + 20000000) }
            speed := { d.speed with ref := 0, frozen := false, wdStep := none }
            tab := { d.tab with deadline := none }
            io := { d.io with pendingDuty := 0, jogDeadline := none } } s t)

/-- R124, R126, R138, R142, R166: the nip. The line count is latched, the serial consumed, the clearance given back with
this nip as the last one, the reference frozen, and the stand is CUTTING with its knife waiting, or started at once by a
knife delay of 0; the entry's zone is in the list, or, with the list full, the overflow is counted, noticed and marked on the record opened. The record
takes the values as they stand at the nip; with the pending slot taken by a waiting record it is dropped and counted.
MODEL'S CHOICE: the id of a reel record that is absent, which no run reaches at a nip, reads 0 (log entry 16). -/
def Obligations.NipMakesTheSplice : Prop :=
  ∀ (i : StandNo) (w : Word) (s : State), s.host.resetLow = false → atOrAfter s.line.usClock w = true →
    s.phase i = .pasting → (s.stand i).paste.oneShot = .active → (s.stand i).seq.attempt.nipTime = some w →
    ClearanceLaw s →
    ∃ t, exec (.nip i) s = .next t ∧
      let d := s.stand i
      let e := t.stand i
      let n := s.line.lineCount
      let zone : TrackEntry :=
        { serial := s.records.nextSerial, stand := i
          zoneStart := n + BitVec.ofNat 32 d.setup.pathLength - BitVec.ofNat 32 s.line.params.preMargin
          zoneEnd := n + BitVec.ofNat 32 d.setup.pathLength + BitVec.ofNat 32 d.setup.zoneLength +
            BitVec.ofNat 32 s.line.params.postMargin
          copies := 0, span := none }
      let full := s.tracker.entries.length = 16 ∧ ∀ x ∈ s.tracker.entries, x.serial ≠ s.records.nextSerial
      (t.phase i = .cutting ∧ e.seq.changes = d.seq.changes + 1 ∧ e.seq.attempt.nipCount = some n ∧
        e.seq.attempt.fireTime = d.seq.attempt.fireTime ∧ e.seq.attempt.nipTime = some w ∧
        e.paste.oneShot = .active ∧ e.paste.dwellEnd = d.paste.dwellEnd) ∧
      (0 < d.setup.knifeDelay → d.setup.knifeDelay ≤ 200000 →
        e.paste.knife = .wait ∧ e.seq.attempt.knifeLate = some (w + 10000000) ∧ e.speed = { d.speed with frozen := true } ∧
        e.io.pendingDuty = d.io.pendingDuty) ∧
      (d.setup.knifeDelay = 0 →
        e.paste.knife = .active ∧ e.seq.attempt.knifeLate = none ∧
        e.paste.knifeEnd = some (s.line.usClock + BitVec.ofNat 32 d.setup.knifeWidth) ∧
        e.speed = { d.speed with ref := 0, frozen := false } ∧ e.io.pendingDuty = 0) ∧
      (t.arbiter.lastNip = n ∧ t.arbiter.lastNipValid = true ∧ t.arbiter.holder ≠ some i ∧
        t.records.nextSerial = serialAfter s.records.nextSerial) ∧
      (s.tracker.entries.length ≤ 16 → ¬ full →
        zone ∈ t.tracker.entries ∧ t.tracker.overflows = s.tracker.overflows ∧
        ∀ x ∈ t.tracker.entries, x = zone ∨ x ∈ s.tracker.entries ∧ x.serial ≠ s.records.nextSerial) ∧
      (full → t.tracker.entries = s.tracker.entries ∧ t.host.notice.getLsbD 5 = true ∧
        t.tracker.overflows =
          if s.tracker.overflows < 4294967295 then s.tracker.overflows + 1 else s.tracker.overflows) ∧
      (d.records.pending = none → ∃ q, e.records.pending = some q ∧ q.phase = .open ∧
        q.record.serial = s.records.nextSerial ∧ q.record.outcome = none ∧
        q.record.newId = ((d.ready.map fun r => r.id).getD 0) ∧
        q.record.expiredId = ((d.running.map fun r => r.reel.id).getD 0) ∧
        q.record.diameter = d.spindle.estimate ∧ q.record.lastDev = d.speed.lastDev ∧ q.record.cause = none ∧
        q.record.knifeLate = false ∧ (full → q.record.trackOverflow = true) ∧
        (s.tracker.entries.length ≤ 16 → ¬ full → q.record.trackOverflow = false) ∧
        ∀ r, d.running = some r → ∀ k, d.seq.attempt.k = some k →
          q.record.nip = some ⟨n, s.line.copyNumber,
            remainingLength d.spindle.estimate r.reel.caliper r.reel.core, d.speed.trim, k⟩) ∧
      (∀ q, d.records.pending = some q → q.phase = .waiting → q.record.serial ≠ s.records.nextSerial →
        (∀ x ∈ s.tracker.entries, x.serial ≠ s.records.nextSerial) → e.records.pending = some q ∧
        (d.records.dropped < 4294967295 → e.records.dropped = d.records.dropped + 1)) ∧
      t.line = s.line ∧ t.safe = s.safe ∧ sameOutside eventBytes s t ∧
      e.running = d.running ∧ e.ready = d.ready ∧ e.setup = d.setup ∧ e.spindle = d.spindle

/-- R115, R116: REVISE TIMING is refused from PASTING to INDEXING and for a θ out of range; accepted, it merges its present
values, clamped, into the active set, or in the attempt states into the staged set. -/
def Obligations.ReviseTimingIsJudgedAndMerged : Prop :=
  ∀ (i : StandNo) (s : State), s.host.resetLow = false → requestDue (.command i) 0x25 s = true →
    ∃ t, exec (.reviseTiming i) s = .next t ∧
      let r := s.timingRequest i
      let d := s.stand i
      let busy := s.phase i = .pasting ∨ s.phase i = .cutting ∨ s.phase i = .indexing
      let bad := ∃ n, r.theta = some n ∧ 4095 < n
      let clamped := (∃ n, r.tAct = some n ∧ 500000 < n) ∨ (∃ n, r.dwell = some n ∧ 200000 < n) ∨
        (∃ n, r.knifeDelay = some n ∧ 200000 < n) ∨ ∃ n, r.knifeWidth = some n ∧ ¬ (1000 ≤ n ∧ n ≤ 200000)
      let tAct := r.tAct.map fun n => min n 500000
      let dwell := r.dwell.map fun n => min n 200000
      let delay := r.knifeDelay.map fun n => min n 200000
      let width := r.knifeWidth.map fun n => max 1000 (min n 200000)
      let active : Stand := { d with setup := { d.setup with
        theta := r.theta.getD d.setup.theta, tAct := tAct.getD d.setup.tAct, dwell := dwell.getD d.setup.dwell
        knifeDelay := delay.getD d.setup.knifeDelay, knifeWidth := width.getD d.setup.knifeWidth } }
      let staged : Stand := { d with staged :=
        ⟨r.theta.or d.staged.theta, tAct.or d.staged.tAct, dwell.or d.staged.dwell, delay.or d.staged.knifeDelay,
          width.or d.staged.knifeWidth⟩ }
      sameOutside (fun a => headerBytes (.command i) a ∨ imageBytes i a) s t ∧
      (busy → Answered (.command i) 0x25 .refusedBusy s t) ∧
      (¬ busy → bad → Answered (.command i) 0x25 .refusedRange s t) ∧
      (¬ busy → ¬ bad → ∀ res, (clamped → res = .acceptedClamped) → (¬ clamped → res = .accepted) →
        ((s.phase i).isAttempt → Answered (.command i) 0x25 res (s.setStand i staged) t) ∧
        (¬ (s.phase i).isAttempt → Answered (.command i) 0x25 res (s.setStand i active) t))

/-! ### Splice clearance (chapter 8) -/

/-- R135, R137: an evaluation grants nothing while a stand holds the clearance, while no request is in or while the distance
test is not met; else it grants the requester with the smallest L_runout, the lowest number of equals, which leaves the
set, becomes the holder and is ARMED. A requester that is VALID without a running record, which no run reaches, is taken
with the largest L_runout: MODEL'S CHOICE (log entry 16). -/
def Obligations.ArbiterGrantsTheMostUrgent : Prop :=
  ∀ s : State,
    let open_ := s.arbiter.holder = none ∧ (∃ i, s.arbiter.requested i = true) ∧
      (s.arbiter.lastNipValid = false ∨
        atOrAfter s.line.lineCount (s.arbiter.lastNip + BitVec.ofNat 32 s.line.params.clearance) = true)
    let lRunout (i : StandNo) : Nat :=
      match (s.stand i).spindle.validity, (s.stand i).running with
      | .valid, some r => remainingLength (s.stand i).spindle.estimate r.reel.caliper (r.reel.core + 20)
      | _, _ => 4294967295
    (¬ open_ → evaluate s = s) ∧
    (open_ → ∃ w : StandNo, s.arbiter.requested w = true ∧
      (∀ j, s.arbiter.requested j = true → lRunout w < lRunout j ∨ lRunout w = lRunout j ∧ w ≤ j) ∧
      (evaluate s).arbiter = { s.arbiter with
        requests := (evaluate s).arbiter.requests, holder := some w, grants := s.arbiter.grants + 1 } ∧
      (∀ j, (evaluate s).arbiter.requested j = (s.arbiter.requested j && decide (j ≠ w))) ∧
      (evaluate s).phase w = .armed ∧ ((evaluate s).stand w).seq.matchDeadline = none ∧
      ∀ j, j ≠ w → (evaluate s).stand j = s.stand j)

/-! ### Splice tracking and the waste gate (chapter 9) -/

/-- R154, R155, R156: GATE OVERRIDE makes its mode pending and refuses a code that names none; FREEZE takes effect at its
intake and keeps the output's level. -/
def Obligations.GateRequestsAreJudged : Prop :=
  ∀ s : State, s.host.resetLow = false → requestDue .line 0x02 s = true →
    (s.gateCode ≠ 3 →
      ∃ t, exec .gateOverride s = .next t ∧ sameOutside (headerBytes .line) s t ∧
        (4 ≤ s.gateCode → Answered .line 0x02 .refusedRange s t) ∧
        (s.gateCode = 0 → Answered .line 0x02 .accepted
          { s with tracker := { s.tracker with pendingMode := some .normal } } t) ∧
        (s.gateCode = 1 → Answered .line 0x02 .accepted
          { s with tracker := { s.tracker with pendingMode := some .forceDivert } } t) ∧
        (s.gateCode = 2 → Answered .line 0x02 .accepted
          { s with tracker := { s.tracker with pendingMode := some .forcePass } } t)) ∧
    (s.gateCode = 3 →
      ∃ t, exec .freeze s = .next t ∧ sameOutside (headerBytes .line) s t ∧
        Answered .line 0x02 .accepted
          { s with tracker := { s.tracker with
            frozenLevel := some s.tracker.output, mode := .frozen, pendingMode := none } } t)

/-- R157, R174, R156: CLEAR TRACKING retires every entry with result LOST, in list order, empties the list and the queue and
sets the output for the emptied queue; the mode, the status and the counts are kept, and no stand, no arbiter and no line
value is reached but the records of the lost splices. An entry whose record is pending marks it lost; one whose record
stands FILLED in the table has it written LOST. -/
def Obligations.ClearTrackingEmptiesListAndQueue : Prop :=
  ∀ s : State, s.host.resetLow = false → requestDue .line 0x03 s = true →
    ∃ t, exec .clearTracking s = .next t ∧ t.header .line = doneHeader 0x03 .accepted ∧
      let lost := retireLost s.tracker.entries s
      t.tracker = { s.tracker with entries := [], queue := [], output := t.tracker.output } ∧
      (s.tracker.lastStatus = .fault → t.tracker.output = .divert) ∧
      (s.tracker.lastStatus ≠ .fault →
        (s.tracker.mode = .normal ∨ s.tracker.mode = .forceDivert → t.tracker.output = .divert) ∧
        (s.tracker.mode = .forcePass → t.tracker.output = .pass) ∧
        (s.tracker.mode = .frozen → ∀ f, s.tracker.frozenLevel = some f → t.tracker.output = f)) ∧
      t.line = s.line ∧ t.arbiter = s.arbiter ∧ t.records = s.records ∧ t.safe = s.safe ∧
      (∀ i : StandNo,
        t.stand i = { lost.stand i with imageCount := (t.stand i).imageCount } ∧
        t.stand i = { s.stand i with
          records := (t.stand i).records, updateCount := (t.stand i).updateCount
          imageCount := (t.stand i).imageCount } ∧
        (t.stand i).records.dropped = (s.stand i).records.dropped) ∧
      (∀ a, recordBytes a → t.mem.read a = lost.mem.read a) ∧
      t.host.notice = withNotices lost.host.notice [.slotDone] ∧
      sameOutside (fun a => headerBytes .line a ∨ eventBytes a) s t ∧
      ∀ x ∈ s.tracker.entries,
        let mine := ∃ q, (s.stand x.stand).records.pending = some q ∧ q.record.serial = x.serial
        t.host.notice.getLsbD (16 + x.stand.val) = true ∧
        (∀ q, (s.stand x.stand).records.pending = some q → q.record.serial = x.serial →
          (t.stand x.stand).records.pending = some { q with record := { q.record with delivery := some .lost } }) ∧
        (¬ mine → ∀ k, filledWith s.mem x.serial = some k → entryState t.mem k = 3) ∧
        (¬ mine → filledWith s.mem x.serial = none → s.tracker.entries = [x] →
          (t.stand x.stand).records = { (s.stand x.stand).records with
            report := some ⟨x.serial, .lost⟩
            unmatchedCount := (s.stand x.stand).records.unmatchedCount + 1 })

/-- R148 to R151: the append of a fate and the pop of a boundary, on the fates the queue stands for, copy by copy. The
append adds one copy and turns no DIVERT into PASS; undegraded it adds exactly the fate; a pop takes the copy at the head
exactly when more than G copies are in. -/
def Obligations.QueueKeepsItsCopies : Prop :=
  let copies (q : List Run) : List Fate := q.flatMap fun r => List.replicate r.count r.fate
  ∀ (f : Fate) (q : List Run) (g : Nat), q.length ≤ 32 → (∀ r ∈ q, 1 ≤ r.count ∧ r.count ≤ 127) → fatesAlternate q →
    let q1 := (appendFate f q).1
    (copies q1).length = (copies q).length + 1 ∧
    (∀ n : Nat, (copies q ++ [f])[n]? = some .divert → (copies q1)[n]? = some .divert) ∧
    ((appendFate f q).2 = false → copies q1 = copies q ++ [f]) ∧
    ((appendFate f q).2 = true ↔ q.length = 32 ∧ q.getLast?.any (fun t => decide (t.fate ≠ f)) = true) ∧
    q1.length ≤ 32 ∧ fatesAlternate q1 ∧
    (queueSum q1 ≤ g → popFate g q1 = (q1, none)) ∧
    (g < queueSum q1 → copies (popFate g q1).1 = (copies q1).tail ∧ (popFate g q1).2 = (copies q1).head?)

/-- R143, R142: a new entry goes after every entry whose zone starts at or before its own and before the others, so a list
in order stays in order, for zone starts that lie within 2^31 counts of one another. -/
def Obligations.InsertionKeepsTheListInOrder : Prop :=
  ∀ (e : TrackEntry) (es : List TrackEntry) (origin : Word),
    (∀ x ∈ e :: es, (x.zoneStart - origin).toNat < 2147483648) → zonesOrdered origin es →
    zonesOrdered origin (insertEntry e es) ∧ (insertEntry e es).Perm (e :: es) ∧
    ∃ pre post, insertEntry e es = pre ++ e :: post ∧ es = pre ++ post ∧
      (∀ x ∈ pre, (x.zoneStart - origin).toNat ≤ (e.zoneStart - origin).toNat) ∧
      ∀ x ∈ post, (e.zoneStart - origin).toNat < (x.zoneStart - origin).toNat

/-- R146, R147, R150 to R154: the tracker's work at a boundary. The copy's fate is DIVERT exactly where an entry overlaps
its span; every entry whose zone ends at or before the boundary leaves the list and is retired DELIVERED, and of the others
those that overlap count the copy. The fate goes through the queue, a pending mode takes effect, the gate output is set by the
table of R152, in NORMAL mode to the popped fate, and a copy under DIVERT is counted. A CUT edge that makes a real boundary
does exactly this at the line count with the next copy number (R8). -/
def Obligations.BoundaryCountsAndRetires : Prop :=
  (∀ (cb n : Word) (s : State),
    let overlaps (e : TrackEntry) : Bool :=
      !atOrAfter e.zoneStart (cb + BitVec.ofNat 32 s.line.params.cutoff) && atOrAfter e.zoneEnd (cb + 1)
    let appended := appendFate (if s.tracker.entries.any overlaps then .divert else .pass) s.tracker.queue
    let popped := popFate s.line.params.gateDelay appended.1
    let delivered := retireDelivered (s.tracker.entries.filter fun e => atOrAfter cb e.zoneEnd) s
    let t := trackBoundary cb n s
    t.tracker.entries = (s.tracker.entries.filter fun e => !atOrAfter cb e.zoneEnd).map (fun e =>
      if overlaps e then { e with
        copies := if e.copies < 65535 then e.copies + 1 else e.copies
        span := some ((e.span.map Prod.fst).getD n, n) } else e) ∧
    t.tracker.queue = popped.1 ∧
    (t.tracker.diverted = if t.tracker.output = .divert then s.tracker.diverted + 1 else s.tracker.diverted) ∧
    t.tracker.lastStatus = s.line.cutStatus ∧ t.tracker.pendingMode = none ∧
    (s.tracker.pendingMode = none → t.tracker.mode = s.tracker.mode) ∧
    (s.tracker.pendingMode = some .normal → t.tracker.mode = .normal) ∧
    (s.tracker.pendingMode = some .forceDivert → t.tracker.mode = .forceDivert) ∧
    (s.tracker.pendingMode = some .forcePass → t.tracker.mode = .forcePass) ∧
    (s.line.cutStatus = .fault → t.tracker.output = .divert) ∧
    (s.line.cutStatus ≠ .fault →
      (t.tracker.mode = .frozen → ∀ f, s.tracker.frozenLevel = some f → t.tracker.output = f) ∧
      (t.tracker.mode = .forcePass → t.tracker.output = .pass) ∧
      (t.tracker.mode = .forceDivert → t.tracker.output = .divert) ∧
      (t.tracker.mode = .normal → popped.2 = none → t.tracker.output = .divert) ∧
      (t.tracker.mode = .normal → ∀ f, popped.2 = some f → t.tracker.output = f)) ∧
    (appended.2 = true → t.host.notice.getLsbD 6 = true) ∧
    t.tracker.degraded = (if appended.2 ∧ s.tracker.degraded < 4294967295 then s.tracker.degraded + 1
      else s.tracker.degraded) ∧
    (∀ i : StandNo, t.stand i = delivered.stand i) ∧ t.mem = delivered.mem ∧
    (∀ e ∈ s.tracker.entries, atOrAfter cb e.zoneEnd = true → t.host.notice.getLsbD 3 = true)) ∧
  ∀ s : State, s.host.resetLow = false → s.line.cut.level = false → 0 < s.line.v →
    (∀ ref, s.line.boundaryRef = some ref →
      atOrAfter s.line.lineCount (ref + BitVec.ofNat 32 (s.line.params.cutoff / 2)) = true) →
    ∃ t, exec .cutEdge s = .next t ∧
      let w := trackBoundary s.line.lineCount (s.line.copyNumber + 1) { s with line := t.line }
      t.line.copyNumber = s.line.copyNumber + 1 ∧ t.tracker = w.tracker ∧ t.host.notice = w.host.notice ∧
      (∀ i : StandNo, t.stand i = { w.stand i with imageCount := (t.stand i).imageCount }) ∧
      ∀ a, recordBytes a → t.mem.read a = w.mem.read a

/-! ### Splice records (chapter 10) -/

/-- R164, R167, R170: an abort before the nip consumes a serial and creates an ABORTED record with the abort's cause, both
reel ids, the estimate and the last dev: it waits in the stand's empty slot or stands in the table; with the slot taken it
is dropped and counted. MODEL'S CHOICE: words 12 to 15 of the placed entry hold 0 (log entry 13), and the id of an absent
reel record reads 0 (log entry 16). -/
def Obligations.AbortedRecordIsKeptOrDropped : Prop :=
  ∀ (i : StandNo) (cause : AbortCause) (s : State),
    let t := createAborted i cause s
    let d := s.stand i
    let e := t.stand i
    let r : SpliceRecord :=
      { serial := s.records.nextSerial, outcome := some .aborted, cause := some cause, knifeLate := false
        trackOverflow := false, newId := ((d.ready.map fun x => x.id).getD 0)
        expiredId := ((d.running.map fun x => x.reel.id).getD 0), nip := none, diameter := d.spindle.estimate
        lastDev := d.speed.lastDev, delivery := none }
    t.records.nextSerial = serialAfter s.records.nextSerial ∧ t.host.notice.getLsbD (16 + i.val) = true ∧
    (d.records.pending.isSome = true →
      e.records.pending = d.records.pending ∧ t.mem = s.mem ∧
      (d.records.dropped < 4294967295 → e.records.dropped = d.records.dropped + 1)) ∧
    (d.records.pending = none →
      e.records.dropped = d.records.dropped ∧
      (e.records.pending = some ⟨r, .waiting⟩ ∧ lowestFree t.mem = none ∧ t.host.notice.getLsbD 4 = true ∨
        e.records.pending = none ∧ t.host.notice.getLsbD 2 = true ∧
        ∃ k, k < 32 ∧ entryState s.mem k = 0 ∧ ∀ n, n < 16 →
          t.mem.readWord (recordBase k + 4 * n) = (recordWords i r).getD n 0))

/-- R170, R171, R172: RECORDS RETURNED makes a placement pass: the indication is removed, every WAITING record is placed or
no entry is FREE, the oldest goes to the lowest FREE entry, OPEN records stay, and TABLE_FULL is not raised. MODEL'S CHOICE:
words 12 to 15 of the placed entry hold 0 (log entry 13). -/
def Obligations.RecordsReturnedPlacesTheWaiting : Prop :=
  ∀ s : State, s.host.resetLow = false → s.attends 17 = true → RecordLaw s →
    ∃ t, exec .recordsReturned s = .next t ∧ t.attends 17 = false ∧
      t.host.notice.getLsbD 4 = s.host.notice.getLsbD 4 ∧
      (∀ i : StandNo,
        ((t.stand i).records.pending = (s.stand i).records.pending ∧
            ((s.waitingRecord i).isSome = true → lowestFree t.mem = none)) ∨
          ((s.waitingRecord i).isSome = true ∧ (t.stand i).records.pending = none)) ∧
      (∀ older i younger r k, s.records.order = older ++ i :: younger → (∀ j ∈ older, s.waitingRecord j = none) →
        s.waitingRecord i = some r → lowestFree s.mem = some k →
        (t.stand i).records.pending = none ∧
        ∀ n, n < 16 → t.mem.readWord (recordBase k + 4 * n) = (recordWords i r).getD n 0) ∧
      (∀ k, k < 32 → entryState s.mem k ≠ 0 →
        ∀ n, n < 64 → t.mem.read (recordBase k + n) = s.mem.read (recordBase k + n)) ∧
      t.line = s.line ∧ t.tracker = s.tracker ∧ t.arbiter = s.arbiter ∧ t.safe = s.safe ∧
      (∀ i : StandNo, t.stand i = { s.stand i with
        records := { (s.stand i).records with pending := (t.stand i).records.pending }
        updateCount := (t.stand i).updateCount, imageCount := (t.stand i).imageCount }) ∧
      sameOutside eventBytes s t

/-- R173, R174, R175: a retirement finds its record in the stand's pending slot, else in the lowest FILLED entry with its
serial, whose state becomes DELIVERED with the copies or LOST, else it is the stand's unmatched report. Word 0 of the entry
keeps its other fields, and the bits that the layout does not list (11, 14, 15, 28 to 31) read 0 (section 11.6); a
loss writes word 0 alone, and a delivery words 0 and 9 to 11. MODEL'S CHOICE: a loss clears delivery presence bits which the
host itself has set (log entry 13). -/
def Obligations.RetirementFindsItsRecord : Prop :=
  ∀ (serial : Nat) (i : StandNo) (result : Retirement) (s : State),
    let t := applyRetirement serial i result s
    let mine := ∃ q, (s.stand i).records.pending = some q ∧ q.record.serial = serial
    t.host.notice.getLsbD (16 + i.val) = true ∧ (∀ j, j ≠ i → t.stand j = s.stand j) ∧ t.records = s.records ∧
    (∀ q, (s.stand i).records.pending = some q → q.record.serial = serial →
      (t.stand i).records = { (s.stand i).records with
        pending := some { q with record := { q.record with delivery := some result } } } ∧ t.mem = s.mem) ∧
    (¬ mine → ∀ k, filledWith s.mem serial = some k →
      (t.stand i).records = (s.stand i).records ∧
      sameOutside (fun a => recordBase k ≤ a ∧ a < recordBase k + 4 ∨
        result ≠ .lost ∧ recordBase k + 36 ≤ a ∧ a < recordBase k + 48) s t ∧
      (let w := s.mem.readWord (recordBase k)
        let v := t.mem.readWord (recordBase k)
        (∀ b, b ∈ [11, 14, 15, 28, 29, 30, 31] → v.getLsbD b = false) ∧
        (∀ b, b ∈ [8, 9, 10, 12, 13] → v.getLsbD b = w.getLsbD b) ∧
        (∀ b, 16 ≤ b → b < 26 → v.getLsbD b = w.getLsbD b) ∧
        v.getLsbD 26 = decide (result ≠ .lost) ∧
        v.getLsbD 27 = match result with
          | .delivered _ span => span.isSome
          | .lost => false) ∧
      (result = .lost → entryState t.mem k = 3) ∧
      ∀ copies span, result = .delivered copies span →
        entryState t.mem k = 2 ∧ t.mem.readWord (recordBase k + 36) = BitVec.ofNat 32 copies ∧
        (∀ x y, span = some (x, y) →
          t.mem.readWord (recordBase k + 40) = x ∧ t.mem.readWord (recordBase k + 44) = y) ∧
        (span = none →
          t.mem.readWord (recordBase k + 40) = 0 ∧ t.mem.readWord (recordBase k + 44) = 0)) ∧
    (¬ mine → filledWith s.mem serial = none →
      (t.stand i).records = { (s.stand i).records with
        report := some ⟨serial, result⟩
        unmatchedCount := (s.stand i).records.unmatchedCount + 1 } ∧ t.mem = s.mem)
end

