-- ==== Sys2Proof/Laws/Memory.lean ====
section
/-!
SUPPORT. The laws of the table area: a byte read after a store, and the canonical form, which every operation keeps.
-/
namespace Sys2Proof.Machine

/-! ### Reads -/

/-- An offset that no entry lists reads as an unlisted one. -/
theorem Memory.read_unlisted {m : Memory} {x : Nat} (h : ∀ c ∈ m, c.1 ≠ x) : Memory.read m x = unlistedByte := by
  induction m with
  | nil => rfl
  | cons c rest ih =>
    obtain ⟨k, b⟩ := c
    have hk : k ≠ x := h (k, b) (by simp)
    simp only [Memory.read, hk, if_false]
    exact ih fun c hc => h c (by simp [hc])

/-- A read of two lists joined, of an offset the first does not list. -/
theorem Memory.read_append_right {m n : Memory} {x : Nat} (h : ∀ c ∈ m, c.1 ≠ x) :
    Memory.read (m ++ n) x = Memory.read n x := by
  induction m with
  | nil => rfl
  | cons c rest ih =>
    obtain ⟨k, b⟩ := c
    have hk : k ≠ x := h (k, b) (by simp)
    simp only [List.cons_append, Memory.read, hk, if_false]
    exact ih fun c hc => h c (by simp [hc])

/-- A read of two lists joined, of an offset the second does not list. -/
theorem Memory.read_append_left {m n : Memory} {x : Nat} (h : ∀ c ∈ n, c.1 ≠ x) :
    Memory.read (m ++ n) x = Memory.read m x := by
  induction m with
  | nil => exact Memory.read_unlisted h
  | cons c rest ih =>
    obtain ⟨k, b⟩ := c
    simp only [List.cons_append, Memory.read]
    split
    · rfl
    · exact ih

/-- A read of the entries that a test on offsets keeps. -/
theorem Memory.read_filter (m : Memory) (p : Nat → Bool) {x : Nat} (h : p x = true) :
    Memory.read (m.filter fun c => p c.1) x = Memory.read m x := by
  induction m with
  | nil => rfl
  | cons c rest ih =>
    obtain ⟨k, b⟩ := c
    by_cases hk : k = x
    · subst hk; simp [h, Memory.read]
    · by_cases hp : p k = true
      · simp [hp, Memory.read, hk, ih]
      · simp [hp, Memory.read, hk, ih]

/-- The entries of a run of bytes lie in the run. -/
theorem cellsFrom_mem {a : Nat} {bs : List Byte} {c : Host.Cell} (h : c ∈ cellsFrom a bs) :
    a ≤ c.1 ∧ c.1 < a + bs.length ∧ c.2 ≠ unlistedByte := by
  induction bs generalizing a with
  | nil => simp [cellsFrom] at h
  | cons b rest ih =>
    simp only [cellsFrom] at h
    split at h
    · have := ih h; simp only [List.length_cons]; exact ⟨by omega, by omega, this.2.2⟩
    · rcases List.mem_cons.mp h with rfl | h
      · simp only [List.length_cons]; exact ⟨Nat.le_refl _, by omega, by assumption⟩
      · have := ih h; simp only [List.length_cons]; exact ⟨by omega, by omega, this.2.2⟩

/-- A read inside a run of bytes gives the run's byte. -/
theorem cellsFrom_read (bs : List Byte) (a k : Nat) (h : k < bs.length) :
    Memory.read (cellsFrom a bs) (a + k) = bs[k] := by
  induction bs generalizing a k with
  | nil => simp at h
  | cons b rest ih =>
    cases k with
    | zero =>
      simp only [cellsFrom]
      split
      · rename_i hb
        subst hb
        refine Memory.read_unlisted fun c hc => ?_
        have := cellsFrom_mem hc; omega
      · simp [Memory.read]
    | succ k =>
      have hk : k < rest.length := by simpa using h
      have := ih (a + 1) k hk
      have e : a + 1 + k = a + (k + 1) := by omega
      rw [e] at this
      simp only [cellsFrom]
      split
      · simpa using this
      · have hne : a ≠ a + (k + 1) := by omega
        simp only [Memory.read, hne, if_false]
        simpa using this

/-- A store changes the bytes of its run and no other. -/
theorem Memory.store_read_outside (m : Memory) (base : Nat) (bs : List Byte) {x : Nat}
    (h : x < base ∨ base + bs.length ≤ x) : (m.store base bs).read x = m.read x := by
  unfold Memory.store
  have hmid : ∀ c ∈ cellsFrom base bs, c.1 ≠ x := fun c hc => by have := cellsFrom_mem hc; omega
  rcases h with h | h
  · have hr : ∀ c ∈ m.filter (fun c => decide (base + bs.length ≤ c.1)), c.1 ≠ x := fun c hc => by
      have := (List.mem_filter.mp hc).2; simp at this; omega
    rw [Memory.read_append_left hr, Memory.read_append_left hmid]
    exact Memory.read_filter m (fun k => decide (k < base)) (by simpa using h)
  · have hl : ∀ c ∈ m.filter (fun c => decide (c.1 < base)) ++ cellsFrom base bs, c.1 ≠ x := fun c hc => by
      rcases List.mem_append.mp hc with hc | hc
      · have := (List.mem_filter.mp hc).2; simp at this; omega
      · exact hmid c hc
    rw [Memory.read_append_right hl]
    exact Memory.read_filter m (fun k => decide (base + bs.length ≤ k)) (by simpa using h)

/-- A read inside a store's run gives the byte stored. -/
theorem Memory.store_read_inside (m : Memory) (base : Nat) (bs : List Byte) (k : Nat) (h : k < bs.length) :
    (m.store base bs).read (base + k) = bs[k] := by
  unfold Memory.store
  have hr : ∀ c ∈ m.filter (fun c => decide (base + bs.length ≤ c.1)), c.1 ≠ base + k := fun c hc => by
    have := (List.mem_filter.mp hc).2; simp at this; omega
  have hl : ∀ c ∈ m.filter (fun c => decide (c.1 < base)), c.1 ≠ base + k := fun c hc => by
    have := (List.mem_filter.mp hc).2; simp at this; omega
  rw [Memory.read_append_left hr, Memory.read_append_right hl]
  exact cellsFrom_read bs base k h

/-- The bytes of a word are four. -/
@[simp] theorem bytesOfWord_length (w : Word) : (bytesOfWord w).length = 4 := rfl

/-- The bytes of a list of words. -/
theorem wordBytes_length (ws : List Word) : (ws.flatMap bytesOfWord).length = 4 * ws.length := by
  induction ws with
  | nil => rfl
  | cons w rest ih => simp [ih]; omega

/-- Storing words leaves every byte outside them. -/
theorem Memory.writeWords_read_outside (m : Memory) (base : Nat) (ws : List Word) {x : Nat}
    (h : x < base ∨ base + 4 * ws.length ≤ x) : (m.writeWords base ws).read x = m.read x :=
  Memory.store_read_outside m base _ (by rw [wordBytes_length]; exact h)

/-- Storing a word leaves every byte outside it. -/
theorem Memory.writeWord_read_outside (m : Memory) (base : Nat) (w : Word) {x : Nat}
    (h : x < base ∨ base + 4 ≤ x) : (m.writeWord base w).read x = m.read x :=
  Memory.store_read_outside m base _ (by simpa using h)

/-- The four bytes of a word, put together, are the word. -/
theorem bytesOfWord_join (w : Word) :
    (w.extractLsb' 24 8 ++ w.extractLsb' 16 8 ++ w.extractLsb' 8 8 ++ w.extractLsb' 0 8 : Word) = w := by
  refine BitVec.eq_of_getElem_eq fun i hi => ?_
  simp only [BitVec.getElem_append, BitVec.getElem_extractLsb']
  by_cases h8 : i < 8
  · simp [h8]; rfl
  · by_cases h16 : i < 16
    · simp [h8, show i - 8 < 8 by omega, show 8 + (i - 8) = i by omega]; rfl
    · by_cases h24 : i < 24
      · simp [h8, show ¬ i - 8 < 8 by omega, show i - 8 - 8 < 8 by omega, show 16 + (i - 8 - 8) = i by omega]; rfl
      · simp [h8, show ¬ i - 8 < 8 by omega, show ¬ i - 8 - 8 < 8 by omega,
          show 24 + (i - 8 - 8 - 8) = i by omega]; rfl

/-- Byte k of word n in the bytes of a list of words. -/
theorem wordBytes_getElem (ws : List Word) (n k : Nat) (hn : n < ws.length) (hk : k < 4) :
    (ws.flatMap bytesOfWord)[4 * n + k]? = some (ws[n].extractLsb' (8 * k) 8) := by
  induction ws generalizing n with
  | nil => exact absurd hn (by simp)
  | cons w rest ih =>
    rw [List.flatMap_cons]
    cases n with
    | zero =>
      rw [List.getElem?_append_left (by simp only [bytesOfWord_length]; omega)]
      rcases k with _ | _ | _ | _ | k
      · rfl
      · rfl
      · rfl
      · rfl
      · omega
    | succ n =>
      rw [List.getElem?_append_right (by simp only [bytesOfWord_length]; omega)]
      have h := ih n (by simpa using hn)
      simp only [bytesOfWord_length, List.getElem_cons_succ]
      rw [show 4 * (n + 1) + k - 4 = 4 * n + k by omega]
      exact h

/-- Word n of a run of words stored reads back as it was stored. -/
theorem Memory.writeWords_readWord (m : Memory) (base : Nat) (ws : List Word) (n : Nat) (hn : n < ws.length) :
    (m.writeWords base ws).readWord (base + 4 * n) = ws[n] := by
  have byte (k : Nat) (hk : k < 4) : (m.writeWords base ws).read (base + 4 * n + k) = ws[n].extractLsb' (8 * k) 8 := by
    have hl : 4 * n + k < (ws.flatMap bytesOfWord).length := by rw [wordBytes_length]; omega
    have h := Memory.store_read_inside m base (ws.flatMap bytesOfWord) (4 * n + k) hl
    rw [show base + 4 * n + k = base + (4 * n + k) by omega, Memory.writeWords, h]
    exact Option.some.inj ((List.getElem?_eq_getElem hl).symm.trans (wordBytes_getElem ws n k hn hk))
  have h0 := byte 0 (by omega)
  rw [Nat.add_zero] at h0
  simp only [Memory.readWord]
  rw [byte 1 (by omega), byte 2 (by omega), byte 3 (by omega), h0]
  exact bytesOfWord_join _

/-- The word read back is the word stored. -/
theorem Memory.writeWord_readWord (m : Memory) (base : Nat) (w : Word) : (m.writeWord base w).readWord base = w := by
  have h := Memory.writeWords_readWord m base [w] 0 (by simp)
  simpa [Memory.writeWords, Memory.writeWord] using h

/-- A word outside the words stored reads as before. -/
theorem Memory.writeWords_readWord_outside (m : Memory) (base : Nat) (ws : List Word) {x : Nat}
    (h : x + 4 ≤ base ∨ base + 4 * ws.length ≤ x) : (m.writeWords base ws).readWord x = m.readWord x := by
  simp only [Memory.readWord]
  rw [Memory.writeWords_read_outside m base ws (by omega), Memory.writeWords_read_outside m base ws (by omega),
    Memory.writeWords_read_outside m base ws (by omega), Memory.writeWords_read_outside m base ws (by omega)]

/-! ### The canonical form -/

theorem cellsFrom_pairwise (a : Nat) (bs : List Byte) : (cellsFrom a bs).Pairwise (fun x y => x.1 < y.1) := by
  induction bs generalizing a with
  | nil => simp [cellsFrom]
  | cons b rest ih =>
    simp only [cellsFrom]
    split
    · exact ih (a + 1)
    · refine List.pairwise_cons.mpr ⟨fun c hc => ?_, ih (a + 1)⟩
      have := cellsFrom_mem hc
      show a < c.1
      omega

/-- A store inside the table area keeps the canonical form. -/
theorem Memory.store_wf {m : Memory} (h : m.wf) (base : Nat) (bs : List Byte) (hb : base + bs.length ≤ tableBytes) :
    (m.store base bs).wf := by
  obtain ⟨hp, hv⟩ := h
  unfold Memory.store
  refine ⟨?_, ?_⟩
  · refine List.pairwise_append.mpr ⟨List.pairwise_append.mpr ⟨hp.filter _, cellsFrom_pairwise _ _, ?_⟩, hp.filter _, ?_⟩
    · intro x hx y hy
      have h1 := (List.mem_filter.mp hx).2
      have h2 := cellsFrom_mem hy
      simp at h1; omega
    · intro x hx y hy
      have h2 := (List.mem_filter.mp hy).2
      rcases List.mem_append.mp hx with hx | hx
      · have h1 := (List.mem_filter.mp hx).2
        simp at h1 h2; omega
      · have h1 := cellsFrom_mem hx
        simp at h2; omega
  · intro c hc
    rcases List.mem_append.mp hc with hc | hc
    · rcases List.mem_append.mp hc with hc | hc
      · exact hv c (List.mem_filter.mp hc).1
      · have := cellsFrom_mem hc
        exact ⟨this.2.2, by omega⟩
    · exact hv c (List.mem_filter.mp hc).1

/-- Storing a word keeps the canonical form. -/
theorem Memory.writeWord_wf {m : Memory} (h : m.wf) (base : Nat) (w : Word) (hb : base + 4 ≤ tableBytes) :
    (m.writeWord base w).wf := Memory.store_wf h base _ (by simpa using hb)

/-- Storing words keeps the canonical form. -/
theorem Memory.writeWords_wf {m : Memory} (h : m.wf) (base : Nat) (ws : List Word)
    (hb : base + 4 * ws.length ≤ tableBytes) : (m.writeWords base ws).wf :=
  Memory.store_wf h base _ (by rw [wordBytes_length]; exact hb)

/-- Clearing a stretch keeps the canonical form. -/
theorem Memory.clear_wf {m : Memory} (h : m.wf) (base n : Nat) (hb : base + 4 * n ≤ tableBytes) :
    (m.clear base n).wf := Memory.writeWords_wf h base _ (by simpa using hb)

/-- The table area of the reset state has the canonical form. -/
theorem State.reset_mem_wf : State.reset.mem.wf := ⟨List.Pairwise.nil, fun _ h => nomatch h⟩

end Sys2Proof.Machine
end

