-- ==== Sys2Proof/Laws/State.lean ====
section
/-!
SUPPORT. The small lemmas of the state: what each update of Machine/Ops.lean leaves in each field, and the same for
the updates of one stand. Later proofs rewrite with these and never unfold a record update.
-/
namespace Sys2Proof.Machine

/-! ### Updates of the state -/
@[simp] theorem State.setStand_line (s : State) (i : StandNo) (d : Stand) : (s.setStand i d).line = s.line := rfl
@[simp] theorem State.setStand_safe (s : State) (i : StandNo) (d : Stand) : (s.setStand i d).safe = s.safe := rfl
@[simp] theorem State.setStand_arbiter (s : State) (i : StandNo) (d : Stand) : (s.setStand i d).arbiter = s.arbiter := rfl
@[simp] theorem State.setStand_tracker (s : State) (i : StandNo) (d : Stand) : (s.setStand i d).tracker = s.tracker := rfl
@[simp] theorem State.setStand_records (s : State) (i : StandNo) (d : Stand) : (s.setStand i d).records = s.records := rfl
@[simp] theorem State.setStand_host (s : State) (i : StandNo) (d : Stand) : (s.setStand i d).host = s.host := rfl
@[simp] theorem State.setStand_phases (s : State) (i : StandNo) (d : Stand) : (s.setStand i d).phases = s.phases := rfl
@[simp] theorem State.setStand_mem (s : State) (i : StandNo) (d : Stand) : (s.setStand i d).mem = s.mem := rfl
@[simp] theorem State.setStand_free (s : State) (i : StandNo) (d : Stand) : (s.setStand i d).free = s.free := rfl
@[simp] theorem State.setStand_pending (s : State) (i : StandNo) (d : Stand) : (s.setStand i d).pending = s.pending := rfl
@[simp] theorem State.modStand_line (s : State) (i : StandNo) (f : Stand → Stand) : (s.modStand i f).line = s.line := rfl
@[simp] theorem State.modStand_safe (s : State) (i : StandNo) (f : Stand → Stand) : (s.modStand i f).safe = s.safe := rfl
@[simp] theorem State.modStand_arbiter (s : State) (i : StandNo) (f : Stand → Stand) : (s.modStand i f).arbiter = s.arbiter := rfl
@[simp] theorem State.modStand_tracker (s : State) (i : StandNo) (f : Stand → Stand) : (s.modStand i f).tracker = s.tracker := rfl
@[simp] theorem State.modStand_records (s : State) (i : StandNo) (f : Stand → Stand) : (s.modStand i f).records = s.records := rfl
@[simp] theorem State.modStand_host (s : State) (i : StandNo) (f : Stand → Stand) : (s.modStand i f).host = s.host := rfl
@[simp] theorem State.modStand_phases (s : State) (i : StandNo) (f : Stand → Stand) : (s.modStand i f).phases = s.phases := rfl
@[simp] theorem State.modStand_mem (s : State) (i : StandNo) (f : Stand → Stand) : (s.modStand i f).mem = s.mem := rfl
@[simp] theorem State.modStand_free (s : State) (i : StandNo) (f : Stand → Stand) : (s.modStand i f).free = s.free := rfl
@[simp] theorem State.modStand_pending (s : State) (i : StandNo) (f : Stand → Stand) : (s.modStand i f).pending = s.pending := rfl
@[simp] theorem State.modLine_safe (s : State) (f : LineRef → LineRef) : (s.modLine f).safe = s.safe := rfl
@[simp] theorem State.modLine_stands (s : State) (f : LineRef → LineRef) : (s.modLine f).stands = s.stands := rfl
@[simp] theorem State.modLine_arbiter (s : State) (f : LineRef → LineRef) : (s.modLine f).arbiter = s.arbiter := rfl
@[simp] theorem State.modLine_tracker (s : State) (f : LineRef → LineRef) : (s.modLine f).tracker = s.tracker := rfl
@[simp] theorem State.modLine_records (s : State) (f : LineRef → LineRef) : (s.modLine f).records = s.records := rfl
@[simp] theorem State.modLine_host (s : State) (f : LineRef → LineRef) : (s.modLine f).host = s.host := rfl
@[simp] theorem State.modLine_phases (s : State) (f : LineRef → LineRef) : (s.modLine f).phases = s.phases := rfl
@[simp] theorem State.modLine_mem (s : State) (f : LineRef → LineRef) : (s.modLine f).mem = s.mem := rfl
@[simp] theorem State.modLine_free (s : State) (f : LineRef → LineRef) : (s.modLine f).free = s.free := rfl
@[simp] theorem State.modLine_pending (s : State) (f : LineRef → LineRef) : (s.modLine f).pending = s.pending := rfl
@[simp] theorem State.modArbiter_line (s : State) (f : Arbiter → Arbiter) : (s.modArbiter f).line = s.line := rfl
@[simp] theorem State.modArbiter_safe (s : State) (f : Arbiter → Arbiter) : (s.modArbiter f).safe = s.safe := rfl
@[simp] theorem State.modArbiter_stands (s : State) (f : Arbiter → Arbiter) : (s.modArbiter f).stands = s.stands := rfl
@[simp] theorem State.modArbiter_tracker (s : State) (f : Arbiter → Arbiter) : (s.modArbiter f).tracker = s.tracker := rfl
@[simp] theorem State.modArbiter_records (s : State) (f : Arbiter → Arbiter) : (s.modArbiter f).records = s.records := rfl
@[simp] theorem State.modArbiter_host (s : State) (f : Arbiter → Arbiter) : (s.modArbiter f).host = s.host := rfl
@[simp] theorem State.modArbiter_phases (s : State) (f : Arbiter → Arbiter) : (s.modArbiter f).phases = s.phases := rfl
@[simp] theorem State.modArbiter_mem (s : State) (f : Arbiter → Arbiter) : (s.modArbiter f).mem = s.mem := rfl
@[simp] theorem State.modArbiter_free (s : State) (f : Arbiter → Arbiter) : (s.modArbiter f).free = s.free := rfl
@[simp] theorem State.modArbiter_pending (s : State) (f : Arbiter → Arbiter) : (s.modArbiter f).pending = s.pending := rfl
@[simp] theorem State.modTracker_line (s : State) (f : Tracker → Tracker) : (s.modTracker f).line = s.line := rfl
@[simp] theorem State.modTracker_safe (s : State) (f : Tracker → Tracker) : (s.modTracker f).safe = s.safe := rfl
@[simp] theorem State.modTracker_stands (s : State) (f : Tracker → Tracker) : (s.modTracker f).stands = s.stands := rfl
@[simp] theorem State.modTracker_arbiter (s : State) (f : Tracker → Tracker) : (s.modTracker f).arbiter = s.arbiter := rfl
@[simp] theorem State.modTracker_records (s : State) (f : Tracker → Tracker) : (s.modTracker f).records = s.records := rfl
@[simp] theorem State.modTracker_host (s : State) (f : Tracker → Tracker) : (s.modTracker f).host = s.host := rfl
@[simp] theorem State.modTracker_phases (s : State) (f : Tracker → Tracker) : (s.modTracker f).phases = s.phases := rfl
@[simp] theorem State.modTracker_mem (s : State) (f : Tracker → Tracker) : (s.modTracker f).mem = s.mem := rfl
@[simp] theorem State.modTracker_free (s : State) (f : Tracker → Tracker) : (s.modTracker f).free = s.free := rfl
@[simp] theorem State.modTracker_pending (s : State) (f : Tracker → Tracker) : (s.modTracker f).pending = s.pending := rfl
@[simp] theorem State.modRecords_line (s : State) (f : RecordUnit → RecordUnit) : (s.modRecords f).line = s.line := rfl
@[simp] theorem State.modRecords_safe (s : State) (f : RecordUnit → RecordUnit) : (s.modRecords f).safe = s.safe := rfl
@[simp] theorem State.modRecords_stands (s : State) (f : RecordUnit → RecordUnit) : (s.modRecords f).stands = s.stands := rfl
@[simp] theorem State.modRecords_arbiter (s : State) (f : RecordUnit → RecordUnit) : (s.modRecords f).arbiter = s.arbiter := rfl
@[simp] theorem State.modRecords_tracker (s : State) (f : RecordUnit → RecordUnit) : (s.modRecords f).tracker = s.tracker := rfl
@[simp] theorem State.modRecords_host (s : State) (f : RecordUnit → RecordUnit) : (s.modRecords f).host = s.host := rfl
@[simp] theorem State.modRecords_phases (s : State) (f : RecordUnit → RecordUnit) : (s.modRecords f).phases = s.phases := rfl
@[simp] theorem State.modRecords_mem (s : State) (f : RecordUnit → RecordUnit) : (s.modRecords f).mem = s.mem := rfl
@[simp] theorem State.modRecords_free (s : State) (f : RecordUnit → RecordUnit) : (s.modRecords f).free = s.free := rfl
@[simp] theorem State.modRecords_pending (s : State) (f : RecordUnit → RecordUnit) : (s.modRecords f).pending = s.pending := rfl
@[simp] theorem State.modHost_line (s : State) (f : HostSide → HostSide) : (s.modHost f).line = s.line := rfl
@[simp] theorem State.modHost_safe (s : State) (f : HostSide → HostSide) : (s.modHost f).safe = s.safe := rfl
@[simp] theorem State.modHost_stands (s : State) (f : HostSide → HostSide) : (s.modHost f).stands = s.stands := rfl
@[simp] theorem State.modHost_arbiter (s : State) (f : HostSide → HostSide) : (s.modHost f).arbiter = s.arbiter := rfl
@[simp] theorem State.modHost_tracker (s : State) (f : HostSide → HostSide) : (s.modHost f).tracker = s.tracker := rfl
@[simp] theorem State.modHost_records (s : State) (f : HostSide → HostSide) : (s.modHost f).records = s.records := rfl
@[simp] theorem State.modHost_phases (s : State) (f : HostSide → HostSide) : (s.modHost f).phases = s.phases := rfl
@[simp] theorem State.modHost_mem (s : State) (f : HostSide → HostSide) : (s.modHost f).mem = s.mem := rfl
@[simp] theorem State.modHost_free (s : State) (f : HostSide → HostSide) : (s.modHost f).free = s.free := rfl
@[simp] theorem State.modHost_pending (s : State) (f : HostSide → HostSide) : (s.modHost f).pending = s.pending := rfl
@[simp] theorem State.setMem_line (s : State) (m : Memory) : (s.setMem m).line = s.line := rfl
@[simp] theorem State.setMem_safe (s : State) (m : Memory) : (s.setMem m).safe = s.safe := rfl
@[simp] theorem State.setMem_stands (s : State) (m : Memory) : (s.setMem m).stands = s.stands := rfl
@[simp] theorem State.setMem_arbiter (s : State) (m : Memory) : (s.setMem m).arbiter = s.arbiter := rfl
@[simp] theorem State.setMem_tracker (s : State) (m : Memory) : (s.setMem m).tracker = s.tracker := rfl
@[simp] theorem State.setMem_records (s : State) (m : Memory) : (s.setMem m).records = s.records := rfl
@[simp] theorem State.setMem_host (s : State) (m : Memory) : (s.setMem m).host = s.host := rfl
@[simp] theorem State.setMem_phases (s : State) (m : Memory) : (s.setMem m).phases = s.phases := rfl
@[simp] theorem State.setMem_free (s : State) (m : Memory) : (s.setMem m).free = s.free := rfl
@[simp] theorem State.setMem_pending (s : State) (m : Memory) : (s.setMem m).pending = s.pending := rfl

@[simp] theorem State.modLine_line (s : State) (f : LineRef → LineRef) : (s.modLine f).line = f s.line := rfl
@[simp] theorem State.modArbiter_arbiter (s : State) (f : Arbiter → Arbiter) : (s.modArbiter f).arbiter = f s.arbiter := rfl
@[simp] theorem State.modTracker_tracker (s : State) (f : Tracker → Tracker) : (s.modTracker f).tracker = f s.tracker := rfl
@[simp] theorem State.modRecords_records (s : State) (f : RecordUnit → RecordUnit) :
    (s.modRecords f).records = f s.records := rfl
@[simp] theorem State.modHost_host (s : State) (f : HostSide → HostSide) : (s.modHost f).host = f s.host := rfl
@[simp] theorem State.setMem_mem (s : State) (m : Memory) : (s.setMem m).mem = m := rfl

/-! ### One stand after an update -/

/-- The value for stand i of a map over the stands. -/
theorem mapStands_getElem {α β : Type} (f : α → β) (v : Vector α 8) (i : StandNo) :
    (mapStands f v)[i.val] = f v[i.val] := by
  match i with
  | 0 | 1 | 2 | 3 | 4 | 5 | 6 | 7 => rfl

@[simp] theorem State.setStand_stand_same (s : State) (i : StandNo) (d : Stand) : (s.setStand i d).stand i = d := by
  simp [State.setStand, State.stand]

theorem State.setStand_stand_ne (s : State) {i j : StandNo} (d : Stand) (h : j ≠ i) :
    (s.setStand i d).stand j = s.stand j := by
  have h' : i.val ≠ j.val := fun e => h (Fin.ext e.symm)
  simp [State.setStand, State.stand, h']

theorem State.setStand_stand (s : State) (i j : StandNo) (d : Stand) :
    (s.setStand i d).stand j = if j = i then d else s.stand j := by
  by_cases h : j = i
  · subst h; simp
  · simp [h, State.setStand_stand_ne s d h]

@[simp] theorem State.modStand_stand_same (s : State) (i : StandNo) (f : Stand → Stand) :
    (s.modStand i f).stand i = f (s.stand i) := by
  simp [State.modStand]

theorem State.modStand_stand_ne (s : State) {i j : StandNo} (f : Stand → Stand) (h : j ≠ i) :
    (s.modStand i f).stand j = s.stand j := by
  simp [State.modStand, State.setStand_stand_ne s _ h]

theorem State.modStand_stand (s : State) (i j : StandNo) (f : Stand → Stand) :
    (s.modStand i f).stand j = if j = i then f (s.stand i) else s.stand j := by
  simp [State.modStand, State.setStand_stand]
@[simp] theorem State.modLine_stand (s : State) (f : LineRef → LineRef) (j : StandNo) : (s.modLine f).stand j = s.stand j := rfl
@[simp] theorem State.modArbiter_stand (s : State) (f : Arbiter → Arbiter) (j : StandNo) : (s.modArbiter f).stand j = s.stand j := rfl
@[simp] theorem State.modTracker_stand (s : State) (f : Tracker → Tracker) (j : StandNo) : (s.modTracker f).stand j = s.stand j := rfl
@[simp] theorem State.modRecords_stand (s : State) (f : RecordUnit → RecordUnit) (j : StandNo) : (s.modRecords f).stand j = s.stand j := rfl
@[simp] theorem State.modHost_stand (s : State) (f : HostSide → HostSide) (j : StandNo) : (s.modHost f).stand j = s.stand j := rfl
@[simp] theorem State.setMem_stand (s : State) (m : Memory) (j : StandNo) : (s.setMem m).stand j = s.stand j := rfl
@[simp] theorem State.modLine_phase (s : State) (f : LineRef → LineRef) (j : StandNo) : (s.modLine f).phase j = s.phase j := rfl
@[simp] theorem State.modArbiter_phase (s : State) (f : Arbiter → Arbiter) (j : StandNo) : (s.modArbiter f).phase j = s.phase j := rfl
@[simp] theorem State.modTracker_phase (s : State) (f : Tracker → Tracker) (j : StandNo) : (s.modTracker f).phase j = s.phase j := rfl
@[simp] theorem State.modRecords_phase (s : State) (f : RecordUnit → RecordUnit) (j : StandNo) : (s.modRecords f).phase j = s.phase j := rfl
@[simp] theorem State.modHost_phase (s : State) (f : HostSide → HostSide) (j : StandNo) : (s.modHost f).phase j = s.phase j := rfl
@[simp] theorem State.setMem_phase (s : State) (m : Memory) (j : StandNo) : (s.setMem m).phase j = s.phase j := rfl

/-- Setting a stand to what it is changes nothing. -/
@[simp] theorem State.setStand_self (s : State) (i : StandNo) : s.setStand i (s.stand i) = s := by
  simp [State.setStand, State.stand]

/-! ### Notices -/
@[simp] theorem raise_line (n : Notice) (s : State) : (raise n s).line = s.line := rfl
@[simp] theorem raise_safe (n : Notice) (s : State) : (raise n s).safe = s.safe := rfl
@[simp] theorem raise_stands (n : Notice) (s : State) : (raise n s).stands = s.stands := rfl
@[simp] theorem raise_arbiter (n : Notice) (s : State) : (raise n s).arbiter = s.arbiter := rfl
@[simp] theorem raise_tracker (n : Notice) (s : State) : (raise n s).tracker = s.tracker := rfl
@[simp] theorem raise_records (n : Notice) (s : State) : (raise n s).records = s.records := rfl
@[simp] theorem raise_phases (n : Notice) (s : State) : (raise n s).phases = s.phases := rfl
@[simp] theorem raise_mem (n : Notice) (s : State) : (raise n s).mem = s.mem := rfl
@[simp] theorem raise_free (n : Notice) (s : State) : (raise n s).free = s.free := rfl
@[simp] theorem raise_pending (n : Notice) (s : State) : (raise n s).pending = s.pending := rfl
@[simp] theorem raise_stand (n : Notice) (s : State) (j : StandNo) : (raise n s).stand j = s.stand j := rfl
@[simp] theorem raise_phase (n : Notice) (s : State) (j : StandNo) : (raise n s).phase j = s.phase j := rfl
@[simp] theorem raise_host_attention (n : Notice) (s : State) : (raise n s).host.attention = s.host.attention := rfl
@[simp] theorem raise_host_enable (n : Notice) (s : State) : (raise n s).host.enable = s.host.enable := rfl
@[simp] theorem raise_host_level (n : Notice) (s : State) : (raise n s).host.level = s.host.level := rfl
@[simp] theorem raise_host_init (n : Notice) (s : State) : (raise n s).host.init = s.host.init := rfl
@[simp] theorem raise_host_initStage (n : Notice) (s : State) : (raise n s).host.initStage = s.host.initStage := rfl
@[simp] theorem raise_host_resetLow (n : Notice) (s : State) : (raise n s).host.resetLow = s.host.resetLow := rfl
@[simp] theorem raise_host_lineUpdates (n : Notice) (s : State) : (raise n s).host.lineUpdates = s.host.lineUpdates := rfl

theorem raise_host_notice (n : Notice) (s : State) :
    (raise n s).host.notice = s.host.notice ||| BitVec.twoPow 24 (noticeBit n) := rfl

/-! ### Rewrite events -/
@[simp] theorem touchStand_line (i : StandNo) (s : State) : (touchStand i s).line = s.line := by
  unfold touchStand; split <;> rfl
@[simp] theorem touchStand_safe (i : StandNo) (s : State) : (touchStand i s).safe = s.safe := by
  unfold touchStand; split <;> rfl
@[simp] theorem touchStand_arbiter (i : StandNo) (s : State) : (touchStand i s).arbiter = s.arbiter := by
  unfold touchStand; split <;> rfl
@[simp] theorem touchStand_tracker (i : StandNo) (s : State) : (touchStand i s).tracker = s.tracker := by
  unfold touchStand; split <;> rfl
@[simp] theorem touchStand_records (i : StandNo) (s : State) : (touchStand i s).records = s.records := by
  unfold touchStand; split <;> rfl
@[simp] theorem touchStand_host (i : StandNo) (s : State) : (touchStand i s).host = s.host := by
  unfold touchStand; split <;> rfl
@[simp] theorem touchStand_phases (i : StandNo) (s : State) : (touchStand i s).phases = s.phases := by
  unfold touchStand; split <;> rfl
@[simp] theorem touchStand_mem (i : StandNo) (s : State) : (touchStand i s).mem = s.mem := by
  unfold touchStand; split <;> rfl
@[simp] theorem touchStand_free (i : StandNo) (s : State) : (touchStand i s).free = s.free := by
  unfold touchStand; split <;> rfl
@[simp] theorem touchStand_pending (i : StandNo) (s : State) : (touchStand i s).pending = s.pending := by
  unfold touchStand; split <;> rfl
@[simp] theorem touchLine_line (s : State) : (touchLine s).line = s.line := by
  unfold touchLine; split <;> rfl
@[simp] theorem touchLine_safe (s : State) : (touchLine s).safe = s.safe := by
  unfold touchLine; split <;> rfl
@[simp] theorem touchLine_stands (s : State) : (touchLine s).stands = s.stands := by
  unfold touchLine; split <;> rfl
@[simp] theorem touchLine_arbiter (s : State) : (touchLine s).arbiter = s.arbiter := by
  unfold touchLine; split <;> rfl
@[simp] theorem touchLine_tracker (s : State) : (touchLine s).tracker = s.tracker := by
  unfold touchLine; split <;> rfl
@[simp] theorem touchLine_records (s : State) : (touchLine s).records = s.records := by
  unfold touchLine; split <;> rfl
@[simp] theorem touchLine_phases (s : State) : (touchLine s).phases = s.phases := by
  unfold touchLine; split <;> rfl
@[simp] theorem touchLine_mem (s : State) : (touchLine s).mem = s.mem := by
  unfold touchLine; split <;> rfl
@[simp] theorem touchLine_free (s : State) : (touchLine s).free = s.free := by
  unfold touchLine; split <;> rfl
@[simp] theorem touchLine_pending (s : State) : (touchLine s).pending = s.pending := by
  unfold touchLine; split <;> rfl
@[simp] theorem touchLine_stand (s : State) (j : StandNo) : (touchLine s).stand j = s.stand j := by
  unfold touchLine; split <;> rfl
@[simp] theorem touchLine_phase (s : State) (j : StandNo) : (touchLine s).phase j = s.phase j := by
  unfold touchLine; split <;> rfl

/-- A rewrite event of stand i changes its update count alone (R183). -/
theorem touchStand_stand (i j : StandNo) (s : State) :
    (touchStand i s).stand j = if j = i ∧ s.host.init = false
      then { s.stand i with updateCount := (s.stand i).updateCount + 1 } else s.stand j := by
  unfold touchStand
  by_cases h : s.host.init = true
  · simp [h]
  · simp [h, State.modStand_stand]

@[simp] theorem touchStand_phase (i j : StandNo) (s : State) : (touchStand i s).phase j = s.phase j := by
  unfold State.phase
  rw [touchStand_stand]
  by_cases h : j = i ∧ s.host.init = false
  · obtain ⟨rfl, h⟩ := h; simp [h]
  · simp [h]
@[simp] theorem recordEvent_line (i : StandNo) (s : State) : (recordEvent i s).line = s.line := by
  simp [recordEvent]
@[simp] theorem recordEvent_safe (i : StandNo) (s : State) : (recordEvent i s).safe = s.safe := by
  simp [recordEvent]
@[simp] theorem recordEvent_arbiter (i : StandNo) (s : State) : (recordEvent i s).arbiter = s.arbiter := by
  simp [recordEvent]
@[simp] theorem recordEvent_tracker (i : StandNo) (s : State) : (recordEvent i s).tracker = s.tracker := by
  simp [recordEvent]
@[simp] theorem recordEvent_records (i : StandNo) (s : State) : (recordEvent i s).records = s.records := by
  simp [recordEvent]
@[simp] theorem recordEvent_phases (i : StandNo) (s : State) : (recordEvent i s).phases = s.phases := by
  simp [recordEvent]
@[simp] theorem recordEvent_mem (i : StandNo) (s : State) : (recordEvent i s).mem = s.mem := by
  simp [recordEvent]
@[simp] theorem recordEvent_free (i : StandNo) (s : State) : (recordEvent i s).free = s.free := by
  simp [recordEvent]
@[simp] theorem recordEvent_pending (i : StandNo) (s : State) : (recordEvent i s).pending = s.pending := by
  simp [recordEvent]
@[simp] theorem recordEvent_phase (i j : StandNo) (s : State) : (recordEvent i s).phase j = s.phase j := by
  simp [recordEvent]

/-! ### Updates of one stand -/
@[simp] theorem Stand.setRef_running (d : Stand) (r : Nat) : (Stand.setRef r d).running = d.running := rfl
@[simp] theorem Stand.setRef_ready (d : Stand) (r : Nat) : (Stand.setRef r d).ready = d.ready := rfl
@[simp] theorem Stand.setRef_setup (d : Stand) (r : Nat) : (Stand.setRef r d).setup = d.setup := rfl
@[simp] theorem Stand.setRef_staged (d : Stand) (r : Nat) : (Stand.setRef r d).staged = d.staged := rfl
@[simp] theorem Stand.setRef_spindle (d : Stand) (r : Nat) : (Stand.setRef r d).spindle = d.spindle := rfl
@[simp] theorem Stand.setRef_tab (d : Stand) (r : Nat) : (Stand.setRef r d).tab = d.tab := rfl
@[simp] theorem Stand.setRef_seq (d : Stand) (r : Nat) : (Stand.setRef r d).seq = d.seq := rfl
@[simp] theorem Stand.setRef_paste (d : Stand) (r : Nat) : (Stand.setRef r d).paste = d.paste := rfl
@[simp] theorem Stand.setRef_records (d : Stand) (r : Nat) : (Stand.setRef r d).records = d.records := rfl
@[simp] theorem Stand.setRef_updateCount (d : Stand) (r : Nat) : (Stand.setRef r d).updateCount = d.updateCount := rfl
@[simp] theorem Stand.setRef_imageCount (d : Stand) (r : Nat) : (Stand.setRef r d).imageCount = d.imageCount := rfl
@[simp] theorem Stand.forceDuty_running (d : Stand) : (Stand.forceDuty d).running = d.running := rfl
@[simp] theorem Stand.forceDuty_ready (d : Stand) : (Stand.forceDuty d).ready = d.ready := rfl
@[simp] theorem Stand.forceDuty_setup (d : Stand) : (Stand.forceDuty d).setup = d.setup := rfl
@[simp] theorem Stand.forceDuty_staged (d : Stand) : (Stand.forceDuty d).staged = d.staged := rfl
@[simp] theorem Stand.forceDuty_spindle (d : Stand) : (Stand.forceDuty d).spindle = d.spindle := rfl
@[simp] theorem Stand.forceDuty_tab (d : Stand) : (Stand.forceDuty d).tab = d.tab := rfl
@[simp] theorem Stand.forceDuty_seq (d : Stand) : (Stand.forceDuty d).seq = d.seq := rfl
@[simp] theorem Stand.forceDuty_speed (d : Stand) : (Stand.forceDuty d).speed = d.speed := rfl
@[simp] theorem Stand.forceDuty_paste (d : Stand) : (Stand.forceDuty d).paste = d.paste := rfl
@[simp] theorem Stand.forceDuty_records (d : Stand) : (Stand.forceDuty d).records = d.records := rfl
@[simp] theorem Stand.forceDuty_updateCount (d : Stand) : (Stand.forceDuty d).updateCount = d.updateCount := rfl
@[simp] theorem Stand.forceDuty_imageCount (d : Stand) : (Stand.forceDuty d).imageCount = d.imageCount := rfl
@[simp] theorem Stand.restDrive_running (d : Stand) : (Stand.restDrive d).running = d.running := rfl
@[simp] theorem Stand.restDrive_ready (d : Stand) : (Stand.restDrive d).ready = d.ready := rfl
@[simp] theorem Stand.restDrive_setup (d : Stand) : (Stand.restDrive d).setup = d.setup := rfl
@[simp] theorem Stand.restDrive_staged (d : Stand) : (Stand.restDrive d).staged = d.staged := rfl
@[simp] theorem Stand.restDrive_spindle (d : Stand) : (Stand.restDrive d).spindle = d.spindle := rfl
@[simp] theorem Stand.restDrive_tab (d : Stand) : (Stand.restDrive d).tab = d.tab := rfl
@[simp] theorem Stand.restDrive_seq (d : Stand) : (Stand.restDrive d).seq = d.seq := rfl
@[simp] theorem Stand.restDrive_paste (d : Stand) : (Stand.restDrive d).paste = d.paste := rfl
@[simp] theorem Stand.restDrive_records (d : Stand) : (Stand.restDrive d).records = d.records := rfl
@[simp] theorem Stand.restDrive_updateCount (d : Stand) : (Stand.restDrive d).updateCount = d.updateCount := rfl
@[simp] theorem Stand.restDrive_imageCount (d : Stand) : (Stand.restDrive d).imageCount = d.imageCount := rfl
@[simp] theorem Stand.changePhase_running (d : Stand) (p : Phase) : (Stand.changePhase p d).running = d.running := rfl
@[simp] theorem Stand.changePhase_ready (d : Stand) (p : Phase) : (Stand.changePhase p d).ready = d.ready := rfl
@[simp] theorem Stand.changePhase_setup (d : Stand) (p : Phase) : (Stand.changePhase p d).setup = d.setup := rfl
@[simp] theorem Stand.changePhase_staged (d : Stand) (p : Phase) : (Stand.changePhase p d).staged = d.staged := rfl
@[simp] theorem Stand.changePhase_spindle (d : Stand) (p : Phase) : (Stand.changePhase p d).spindle = d.spindle := rfl
@[simp] theorem Stand.changePhase_speed (d : Stand) (p : Phase) : (Stand.changePhase p d).speed = d.speed := rfl
@[simp] theorem Stand.changePhase_paste (d : Stand) (p : Phase) : (Stand.changePhase p d).paste = d.paste := rfl
@[simp] theorem Stand.changePhase_records (d : Stand) (p : Phase) : (Stand.changePhase p d).records = d.records := rfl
@[simp] theorem Stand.changePhase_updateCount (d : Stand) (p : Phase) : (Stand.changePhase p d).updateCount = d.updateCount := rfl
@[simp] theorem Stand.changePhase_imageCount (d : Stand) (p : Phase) : (Stand.changePhase p d).imageCount = d.imageCount := rfl
@[simp] theorem Stand.beginAttempt_running (d : Stand) : (Stand.beginAttempt d).running = d.running := rfl
@[simp] theorem Stand.beginAttempt_ready (d : Stand) : (Stand.beginAttempt d).ready = d.ready := rfl
@[simp] theorem Stand.beginAttempt_setup (d : Stand) : (Stand.beginAttempt d).setup = d.setup := rfl
@[simp] theorem Stand.beginAttempt_staged (d : Stand) : (Stand.beginAttempt d).staged = d.staged := rfl
@[simp] theorem Stand.beginAttempt_spindle (d : Stand) : (Stand.beginAttempt d).spindle = d.spindle := rfl
@[simp] theorem Stand.beginAttempt_records (d : Stand) : (Stand.beginAttempt d).records = d.records := rfl
@[simp] theorem Stand.beginAttempt_updateCount (d : Stand) : (Stand.beginAttempt d).updateCount = d.updateCount := rfl
@[simp] theorem Stand.beginAttempt_imageCount (d : Stand) : (Stand.beginAttempt d).imageCount = d.imageCount := rfl
@[simp] theorem Stand.beginMatching_io (d : Stand) (c : Word) : (Stand.beginMatching c d).io = d.io := rfl
@[simp] theorem Stand.beginMatching_running (d : Stand) (c : Word) : (Stand.beginMatching c d).running = d.running := rfl
@[simp] theorem Stand.beginMatching_ready (d : Stand) (c : Word) : (Stand.beginMatching c d).ready = d.ready := rfl
@[simp] theorem Stand.beginMatching_setup (d : Stand) (c : Word) : (Stand.beginMatching c d).setup = d.setup := rfl
@[simp] theorem Stand.beginMatching_staged (d : Stand) (c : Word) : (Stand.beginMatching c d).staged = d.staged := rfl
@[simp] theorem Stand.beginMatching_spindle (d : Stand) (c : Word) : (Stand.beginMatching c d).spindle = d.spindle := rfl
@[simp] theorem Stand.beginMatching_speed (d : Stand) (c : Word) : (Stand.beginMatching c d).speed = d.speed := rfl
@[simp] theorem Stand.beginMatching_paste (d : Stand) (c : Word) : (Stand.beginMatching c d).paste = d.paste := rfl
@[simp] theorem Stand.beginMatching_records (d : Stand) (c : Word) : (Stand.beginMatching c d).records = d.records := rfl
@[simp] theorem Stand.beginMatching_updateCount (d : Stand) (c : Word) : (Stand.beginMatching c d).updateCount = d.updateCount := rfl
@[simp] theorem Stand.beginMatching_imageCount (d : Stand) (c : Word) : (Stand.beginMatching c d).imageCount = d.imageCount := rfl
@[simp] theorem Stand.beginIndexing_running (d : Stand) (c : Word) : (Stand.beginIndexing c d).running = d.running := rfl
@[simp] theorem Stand.beginIndexing_ready (d : Stand) (c : Word) : (Stand.beginIndexing c d).ready = d.ready := rfl
@[simp] theorem Stand.beginIndexing_setup (d : Stand) (c : Word) : (Stand.beginIndexing c d).setup = d.setup := rfl
@[simp] theorem Stand.beginIndexing_staged (d : Stand) (c : Word) : (Stand.beginIndexing c d).staged = d.staged := rfl
@[simp] theorem Stand.beginIndexing_spindle (d : Stand) (c : Word) : (Stand.beginIndexing c d).spindle = d.spindle := rfl
@[simp] theorem Stand.beginIndexing_tab (d : Stand) (c : Word) : (Stand.beginIndexing c d).tab = d.tab := rfl
@[simp] theorem Stand.beginIndexing_records (d : Stand) (c : Word) : (Stand.beginIndexing c d).records = d.records := rfl
@[simp] theorem Stand.beginIndexing_updateCount (d : Stand) (c : Word) : (Stand.beginIndexing c d).updateCount = d.updateCount := rfl
@[simp] theorem Stand.beginIndexing_imageCount (d : Stand) (c : Word) : (Stand.beginIndexing c d).imageCount = d.imageCount := rfl
@[simp] theorem Stand.beginWinddown_io (d : Stand) : (Stand.beginWinddown d).io = d.io := rfl
@[simp] theorem Stand.beginWinddown_running (d : Stand) : (Stand.beginWinddown d).running = d.running := rfl
@[simp] theorem Stand.beginWinddown_ready (d : Stand) : (Stand.beginWinddown d).ready = d.ready := rfl
@[simp] theorem Stand.beginWinddown_setup (d : Stand) : (Stand.beginWinddown d).setup = d.setup := rfl
@[simp] theorem Stand.beginWinddown_staged (d : Stand) : (Stand.beginWinddown d).staged = d.staged := rfl
@[simp] theorem Stand.beginWinddown_spindle (d : Stand) : (Stand.beginWinddown d).spindle = d.spindle := rfl
@[simp] theorem Stand.beginWinddown_tab (d : Stand) : (Stand.beginWinddown d).tab = d.tab := rfl
@[simp] theorem Stand.beginWinddown_seq (d : Stand) : (Stand.beginWinddown d).seq = d.seq := rfl
@[simp] theorem Stand.beginWinddown_paste (d : Stand) : (Stand.beginWinddown d).paste = d.paste := rfl
@[simp] theorem Stand.beginWinddown_records (d : Stand) : (Stand.beginWinddown d).records = d.records := rfl
@[simp] theorem Stand.beginWinddown_updateCount (d : Stand) : (Stand.beginWinddown d).updateCount = d.updateCount := rfl
@[simp] theorem Stand.beginWinddown_imageCount (d : Stand) : (Stand.beginWinddown d).imageCount = d.imageCount := rfl

@[simp] theorem Stand.setRef_ref (d : Stand) (r : Nat) : (Stand.setRef r d).speed.ref = r := rfl
@[simp] theorem Stand.setRef_pendingDuty (d : Stand) (r : Nat) : (Stand.setRef r d).io.pendingDuty = r := rfl
@[simp] theorem Stand.setRef_duty (d : Stand) (r : Nat) : (Stand.setRef r d).io.duty = d.io.duty := rfl
@[simp] theorem Stand.forceDuty_duty (d : Stand) : d.forceDuty.io.duty = 0 := rfl
@[simp] theorem Stand.forceDuty_pendingDuty (d : Stand) : d.forceDuty.io.pendingDuty = 0 := rfl
@[simp] theorem Stand.forceDuty_driveOut (d : Stand) : d.forceDuty.io.driveOut = false := rfl
@[simp] theorem Stand.restDrive_ref (d : Stand) : d.restDrive.speed.ref = 0 := rfl
@[simp] theorem Stand.restDrive_frozen (d : Stand) : d.restDrive.speed.frozen = false := rfl
@[simp] theorem Stand.restDrive_wdStep (d : Stand) : d.restDrive.speed.wdStep = none := rfl
@[simp] theorem Stand.restDrive_matchCount (d : Stand) : d.restDrive.speed.matchCount = d.speed.matchCount := rfl
@[simp] theorem Stand.changePhase_phase (d : Stand) (p : Phase) : (d.changePhase p).seq.phase = p := rfl
@[simp] theorem Stand.changePhase_changes (d : Stand) (p : Phase) :
    (d.changePhase p).seq.changes = d.seq.changes + 1 := rfl
@[simp] theorem Stand.changePhase_target (d : Stand) (p : Phase) : (d.changePhase p).seq.target = none := rfl
@[simp] theorem Stand.changePhase_matchDeadline (d : Stand) (p : Phase) :
    (d.changePhase p).seq.matchDeadline = none := rfl
@[simp] theorem Stand.changePhase_indexDeadline (d : Stand) (p : Phase) :
    (d.changePhase p).seq.indexDeadline = none := rfl
@[simp] theorem Stand.changePhase_cause (d : Stand) (p : Phase) : (d.changePhase p).seq.cause = d.seq.cause := rfl
@[simp] theorem Stand.changePhase_attempt (d : Stand) (p : Phase) : (d.changePhase p).seq.attempt = d.seq.attempt := rfl
@[simp] theorem Stand.beginMatching_phase (d : Stand) (c : Word) : (d.beginMatching c).seq.phase = d.seq.phase := rfl
@[simp] theorem Stand.beginIndexing_phase (d : Stand) (c : Word) : (d.beginIndexing c).seq.phase = d.seq.phase := rfl
@[simp] theorem Stand.beginAttempt_phase (d : Stand) : d.beginAttempt.seq.phase = d.seq.phase := rfl
@[simp] theorem Stand.beginWinddown_ref (d : Stand) : d.beginWinddown.speed.ref = d.speed.ref := rfl

/-- An entry's own settings leave the state it enters (R73). -/
@[simp] theorem Stand.onEntry_phase (c : Word) (p : Phase) (d : Stand) : (d.onEntry c p).seq.phase = d.seq.phase := by
  cases p <;> rfl
@[simp] theorem Stand.onEntry_changes (c : Word) (p : Phase) (d : Stand) :
    (d.onEntry c p).seq.changes = d.seq.changes := by
  cases p <;> rfl
@[simp] theorem Stand.onEntry_running (c : Word) (p : Phase) (d : Stand) : (d.onEntry c p).running = d.running := by
  cases p <;> rfl
@[simp] theorem Stand.onEntry_ready (c : Word) (p : Phase) (d : Stand) : (d.onEntry c p).ready = d.ready := by
  cases p <;> rfl
@[simp] theorem Stand.onEntry_setup (c : Word) (p : Phase) (d : Stand) : (d.onEntry c p).setup = d.setup := by
  cases p <;> rfl
@[simp] theorem Stand.onEntry_staged (c : Word) (p : Phase) (d : Stand) : (d.onEntry c p).staged = d.staged := by
  cases p <;> rfl
@[simp] theorem Stand.onEntry_spindle (c : Word) (p : Phase) (d : Stand) : (d.onEntry c p).spindle = d.spindle := by
  cases p <;> rfl
@[simp] theorem Stand.onEntry_records (c : Word) (p : Phase) (d : Stand) : (d.onEntry c p).records = d.records := by
  cases p <;> rfl
@[simp] theorem Stand.onEntry_updateCount (c : Word) (p : Phase) (d : Stand) : (d.onEntry c p).updateCount = d.updateCount := by
  cases p <;> rfl
@[simp] theorem Stand.onEntry_imageCount (c : Word) (p : Phase) (d : Stand) : (d.onEntry c p).imageCount = d.imageCount := by
  cases p <;> rfl

/-! ### The change of a stand's state (R73) -/
@[simp] theorem enter_line (i : StandNo) (p : Phase) (s : State) : (enter i p s).line = s.line := by
  simp [enter]
@[simp] theorem enter_safe (i : StandNo) (p : Phase) (s : State) : (enter i p s).safe = s.safe := by
  simp [enter]
@[simp] theorem enter_arbiter (i : StandNo) (p : Phase) (s : State) : (enter i p s).arbiter = s.arbiter := by
  simp [enter]
@[simp] theorem enter_tracker (i : StandNo) (p : Phase) (s : State) : (enter i p s).tracker = s.tracker := by
  simp [enter]
@[simp] theorem enter_records (i : StandNo) (p : Phase) (s : State) : (enter i p s).records = s.records := by
  simp [enter]
@[simp] theorem enter_phases (i : StandNo) (p : Phase) (s : State) : (enter i p s).phases = s.phases := by
  simp [enter]
@[simp] theorem enter_mem (i : StandNo) (p : Phase) (s : State) : (enter i p s).mem = s.mem := by
  simp [enter]
@[simp] theorem enter_free (i : StandNo) (p : Phase) (s : State) : (enter i p s).free = s.free := by
  simp [enter]
@[simp] theorem enter_pending (i : StandNo) (p : Phase) (s : State) : (enter i p s).pending = s.pending := by
  simp [enter]

/-- What `enter` does to the stands: stand i takes its new state with the entry's settings and a rewrite event. -/
theorem enter_stand (i j : StandNo) (p : Phase) (s : State) :
    (enter i p s).stand j = if j = i
      then { ((s.stand i).changePhase p).onEntry s.line.usClock p with
        updateCount := if s.host.init then (s.stand i).updateCount else (s.stand i).updateCount + 1 }
      else s.stand j := by
  by_cases h : j = i
  · subst h
    cases hi : s.host.init
    · simp [enter, recordEvent, touchStand_stand, hi]
    · simp [enter, recordEvent, touchStand_stand, hi]
      cases p <;> rfl
  · simp [enter, recordEvent, touchStand_stand, h, State.modStand_stand]

/-- A stand is in the state it has entered, and the others are where they were. -/
theorem enter_phase (i j : StandNo) (p : Phase) (s : State) :
    (enter i p s).phase j = if j = i then p else s.phase j := by
  unfold State.phase
  rw [enter_stand]
  by_cases h : j = i <;> simp [h]

end Sys2Proof.Machine
end

