-- ==== Sys2Proof/Laws/Commit.lean ====
section
/-!
SUPPORT. What the end of an event does (`commit`), and what a command that takes place, or a request that is taken in,
answers: one lemma each that says everything, so that later proofs cite it and do not unfold the operation.
-/
namespace Sys2Proof.Machine

/-! ### Stand by stand -/

/-- What holds before an operation over the eight stands and is kept by each of its parts holds after it. -/
theorem forStands_induct {P : State → Prop} {f : StandNo → State → State} (hf : ∀ i s, P s → P (f i s)) {s : State}
    (h : P s) : P (forStands f s) := by
  unfold forStands
  induction standNumbers generalizing s with
  | nil => exact h
  | cons i rest ih => exact ih (hf i s h)

/-- The eight parts of an operation that does nothing leave the state. -/
theorem forStands_eq_self {f : StandNo → State → State} {s : State} (h : ∀ i, f i s = s) : forStands f s = s := by
  unfold forStands
  induction standNumbers with
  | nil => rfl
  | cons i rest ih => rw [List.foldl_cons, h i]; exact ih

/-! ### The lengths of what the part writes (section 11.6) -/

@[simp] theorem standBlock_length (v : Nat) (d : Stand) : (standBlock v d).length = 32 := rfl
@[simp] theorem lineBlock_length (s : State) : (lineBlock s).length = 64 := rfl
@[simp] theorem imageWords_length (d : Stand) : (imageWords d).length = 27 := rfl

/-! ### The end of an event -/

/-- The bytes that the end of an event may write: the status blocks and the configuration images (R178). -/
def commitBytes (x : Nat) : Prop :=
  (0x0640 ≤ x ∧ x < 0x0B40) ∨ ∃ i : StandNo, 0x0244 + 128 * i.val ≤ x ∧ x < 0x02B0 + 128 * i.val

/-- What the end of an event leaves: every field but the table area and the image counts. -/
structure CommitKeeps (s t : State) : Prop where
  line    : t.line = s.line
  safe    : t.safe = s.safe
  arbiter : t.arbiter = s.arbiter
  tracker : t.tracker = s.tracker
  records : t.records = s.records
  host    : t.host = s.host
  phases  : t.phases = s.phases
  free    : t.free = s.free
  pending : t.pending = s.pending
  stand   : ∀ j, t.stand j = { s.stand j with imageCount := (t.stand j).imageCount }
  read    : ∀ x, ¬ commitBytes x → t.mem.read x = s.mem.read x
  wf      : s.mem.wf → t.mem.wf

theorem CommitKeeps.refl (s : State) : CommitKeeps s s :=
  ⟨rfl, rfl, rfl, rfl, rfl, rfl, rfl, rfl, rfl, fun _ => rfl, fun _ _ => rfl, id⟩

theorem CommitKeeps.trans {s t u : State} (h : CommitKeeps s t) (k : CommitKeeps t u) : CommitKeeps s u where
  line := k.line.trans h.line
  safe := k.safe.trans h.safe
  arbiter := k.arbiter.trans h.arbiter
  tracker := k.tracker.trans h.tracker
  records := k.records.trans h.records
  host := k.host.trans h.host
  phases := k.phases.trans h.phases
  free := k.free.trans h.free
  pending := k.pending.trans h.pending
  stand := fun j => by rw [k.stand j, h.stand j]
  read := fun x hx => (k.read x hx).trans (h.read x hx)
  wf := fun w => k.wf (h.wf w)

theorem writeStandBlock_keeps (i : StandNo) (s : State) : CommitKeeps s (writeStandBlock i s) where
  line := rfl
  safe := rfl
  arbiter := rfl
  tracker := rfl
  records := rfl
  host := rfl
  phases := rfl
  free := rfl
  pending := rfl
  stand := fun _ => rfl
  read := fun x hx => by
    have hi := i.isLt
    refine Memory.writeWords_read_outside _ _ _ ?_
    simp only [standBlock_length, standBlockBase, commitBytes] at hx ⊢
    omega
  wf := fun w => by
    have hi := i.isLt
    refine Memory.writeWords_wf w _ _ ?_
    simp only [standBlock_length, standBlockBase, tableBytes]
    omega

theorem writeLineBlock_keeps (s : State) : CommitKeeps s (writeLineBlock s) where
  line := rfl
  safe := rfl
  arbiter := rfl
  tracker := rfl
  records := rfl
  host := rfl
  phases := rfl
  free := rfl
  pending := rfl
  stand := fun _ => rfl
  read := fun x hx => by
    refine Memory.writeWords_read_outside _ _ _ ?_
    simp only [lineBlock_length, lineBlockBase, commitBytes] at hx ⊢
    omega
  wf := fun w => by
    refine Memory.writeWords_wf w _ _ ?_
    simp only [lineBlock_length, lineBlockBase, tableBytes]
    omega

theorem writeImage_keeps (i : StandNo) (n : Word) (s : State) : CommitKeeps s (writeImage i n s) where
  line := rfl
  safe := rfl
  arbiter := rfl
  tracker := rfl
  records := rfl
  host := rfl
  phases := rfl
  free := rfl
  pending := rfl
  stand := fun j => by
    simp only [writeImage, State.setMem_stand, State.modStand_stand]
    by_cases h : j = i <;> simp [h]
  read := fun x hx => by
    have hi := i.isLt
    refine Memory.writeWords_read_outside _ _ _ ?_
    simp only [imageWords_length, slotBase]
    have h : ¬ (0x0244 + 128 * i.val ≤ x ∧ x < 0x02B0 + 128 * i.val) := fun h => hx (.inr ⟨i, h⟩)
    omega
  wf := fun w => by
    have hi := i.isLt
    refine Memory.writeWords_wf (by simpa using w) _ _ ?_
    simp only [imageWords_length, slotBase, tableBytes]
    omega

theorem commitStand_keeps (b : State) (i : StandNo) (s : State) : CommitKeeps s (commitStand b i s) := by
  unfold commitStand
  simp only
  split
  · exact .refl s
  · split
    · exact (writeStandBlock_keeps i s).trans (writeImage_keeps _ _ _)
    · exact writeStandBlock_keeps i s

/-- Everything that the end of an event leaves as it is (R183, R184; log entry 4). -/
theorem commit_keeps (b s : State) : CommitKeeps s (commit b s) := by
  unfold commit
  refine forStands_induct (P := fun t => CommitKeeps s t) (fun i t h => h.trans (commitStand_keeps b i t)) ?_
  unfold commitLine
  split
  · exact .refl s
  · exact writeLineBlock_keeps s

/-- The end of an event that held no rewrite event does nothing. -/
theorem commit_eq_self {b s : State} (hl : s.host.lineUpdates = b.host.lineUpdates)
    (hs : ∀ i, (s.stand i).updateCount = (b.stand i).updateCount) : commit b s = s := by
  unfold commit commitLine
  rw [if_pos hl]
  exact forStands_eq_self fun i => by simp [commitStand, hs i]

/-! ### Commands -/

/-- Everything that a command which names one event can answer (log entry 1). -/
theorem takesPlace_cases {c : Bool} {e : State → State} {s : State} {o : Host.Outcome State Fault Refusal}
    (h : takesPlace c e s = o) :
    (s.host.resetLow = false ∧ c = true ∧ o = .next (commit s (e s))) ∨
      ((s.host.resetLow = true ∨ c = false) ∧ o = .next s) := by
  unfold takesPlace at h
  cases hr : s.host.resetLow <;> cases hc : c <;> simp [hr, hc] at h <;> simp [h]

/-- A command whose event takes place. -/
theorem takesPlace_pos {c : Bool} {e : State → State} {s : State} (hr : s.host.resetLow = false) (hc : c = true) :
    takesPlace c e s = .next (commit s (e s)) := by
  simp [takesPlace, hr, hc]

/-- A command whose event takes place without a rewrite event. -/
theorem takesPlace_plain {c : Bool} {e : State → State} {s : State} (hr : s.host.resetLow = false) (hc : c = true)
    (hl : (e s).host.lineUpdates = s.host.lineUpdates)
    (hs : ∀ i, ((e s).stand i).updateCount = (s.stand i).updateCount) : takesPlace c e s = .next (e s) := by
  rw [takesPlace_pos hr hc, commit_eq_self hl hs]

/-- Everything that a request's command can answer (R180). -/
theorem intake_cases {slot : Slot} {kind : Nat} {owner : State → Result × State} {s : State}
    {o : Host.Outcome State Fault Refusal} (h : intake slot kind owner s = o) :
    (s.host.resetLow = false ∧ requestDue slot kind s = true ∧ o = .next (intakeEvent slot owner s)) ∨
      ((s.host.resetLow = true ∨ requestDue slot kind s = false) ∧ o = .next s) := by
  unfold intake at h
  cases hr : s.host.resetLow <;> cases hc : requestDue slot kind s <;> simp [hr, hc] at h <;> simp [h]

/-- A request that is taken in. -/
theorem intake_pos {slot : Slot} {kind : Nat} {owner : State → Result × State} {s : State}
    (hr : s.host.resetLow = false) (hd : requestDue slot kind s = true) :
    intake slot kind owner s = .next (intakeEvent slot owner s) := by
  simp [intake, hr, hd]

/-- The answer writes the slot's header, the attention set as it stands, and the notices. -/
theorem answer_keeps (slot : Slot) (kind : Nat) (r : Result) (s : State) :
    (answer slot kind r s).line = s.line ∧ (answer slot kind r s).safe = s.safe ∧
      (answer slot kind r s).arbiter = s.arbiter ∧ (answer slot kind r s).tracker = s.tracker ∧
      (answer slot kind r s).records = s.records ∧ (answer slot kind r s).phases = s.phases ∧
      (answer slot kind r s).free = s.free ∧ (answer slot kind r s).pending = s.pending ∧
      (answer slot kind r s).stands = s.stands ∧
      (answer slot kind r s).mem = s.mem.writeWord (slotBase slot) (doneHeader kind r) := by
  cases slot <;> exact ⟨rfl, rfl, rfl, rfl, rfl, rfl, rfl, rfl, rfl, rfl⟩

end Sys2Proof.Machine
end

