-- ==== Sys2Proof/Laws/Records.lean ====
section
/-!
SUPPORT. What the record unit's operations can do, each said once: the frame they share, and the cases of the
operations that choose. Later proofs cite these and do not unfold the operations.
-/
namespace Sys2Proof.Machine

/-! ### The frame of the record unit -/

/-- What no operation of the record unit changes: everything but the record fields and the update counts of the stands,
the line-wide record unit, NOTICE, and the bytes of the record table. -/
structure RecordFrame (s t : State) : Prop where
  line    : t.line = s.line
  safe    : t.safe = s.safe
  arbiter : t.arbiter = s.arbiter
  tracker : t.tracker = s.tracker
  phases  : t.phases = s.phases
  free    : t.free = s.free
  pending : t.pending = s.pending
  host    : t.host = { s.host with notice := t.host.notice }
  stand   : ∀ j, t.stand j =
    { s.stand j with records := (t.stand j).records, updateCount := (t.stand j).updateCount }
  read    : ∀ x, ¬ (0x0B40 ≤ x ∧ x < 0x1340) → t.mem.read x = s.mem.read x
  wf      : s.mem.wf → t.mem.wf

theorem RecordFrame.refl (s : State) : RecordFrame s s :=
  ⟨rfl, rfl, rfl, rfl, rfl, rfl, rfl, rfl, fun _ => rfl, fun _ _ => rfl, id⟩

theorem RecordFrame.trans {s t u : State} (h : RecordFrame s t) (k : RecordFrame t u) : RecordFrame s u where
  line := k.line.trans h.line
  safe := k.safe.trans h.safe
  arbiter := k.arbiter.trans h.arbiter
  tracker := k.tracker.trans h.tracker
  phases := k.phases.trans h.phases
  free := k.free.trans h.free
  pending := k.pending.trans h.pending
  host := by rw [k.host, h.host]
  stand := fun j => by rw [k.stand j, h.stand j]
  read := fun x hx => (k.read x hx).trans (h.read x hx)
  wf := fun w => k.wf (h.wf w)

/-- The state of every stand is kept. -/
theorem RecordFrame.phase {s t : State} (h : RecordFrame s t) (j : StandNo) : t.phase j = s.phase j := by
  unfold State.phase
  rw [h.stand j]

theorem raise_frame (n : Notice) (s : State) : RecordFrame s (raise n s) :=
  ⟨rfl, rfl, rfl, rfl, rfl, rfl, rfl, rfl, fun _ => rfl, fun _ _ => rfl, id⟩

/-- A change of one stand's record fields alone. -/
theorem modStand_records_frame (i : StandNo) (f : Stand → StandRecords) (s : State) :
    RecordFrame s (s.modStand i fun d => { d with records := f d }) where
  line := rfl
  safe := rfl
  arbiter := rfl
  tracker := rfl
  phases := rfl
  free := rfl
  pending := rfl
  host := rfl
  stand := fun j => by
    rw [State.modStand_stand]
    by_cases h : j = i <;> simp [h]
  read := fun _ _ => rfl
  wf := id

theorem touchStand_frame (i : StandNo) (s : State) : RecordFrame s (touchStand i s) where
  line := by simp
  safe := by simp
  arbiter := by simp
  tracker := by simp
  phases := by simp
  free := by simp
  pending := by simp
  host := by simp
  stand := fun j => by
    rw [touchStand_stand]
    split <;> rename_i h <;> simp [h]
  read := fun _ _ => by simp
  wf := by simp

theorem recordEvent_frame (i : StandNo) (s : State) : RecordFrame s (recordEvent i s) :=
  (raise_frame _ s).trans (touchStand_frame i _)

theorem modRecords_frame (f : RecordUnit → RecordUnit) (s : State) : RecordFrame s (s.modRecords f) :=
  ⟨rfl, rfl, rfl, rfl, rfl, rfl, rfl, rfl, fun _ => rfl, fun _ _ => rfl, id⟩

/-- A write of whole words inside the record table. -/
theorem setMem_table_frame (s : State) (base : Nat) (ws : List Word) (hb : 0x0B40 ≤ base)
    (ht : base + 4 * ws.length ≤ 0x1340) : RecordFrame s (s.setMem (s.mem.writeWords base ws)) where
  line := rfl
  safe := rfl
  arbiter := rfl
  tracker := rfl
  phases := rfl
  free := rfl
  pending := rfl
  host := rfl
  stand := fun _ => rfl
  read := fun x hx => Memory.writeWords_read_outside _ _ _ (by omega)
  wf := fun w => Memory.writeWords_wf w _ _ (by simp only [tableBytes]; omega)

/-! ### Placement (R170) -/

/-- The lowest FREE entry is one of the 32. -/
theorem lowestFree_lt {m : Memory} {e : Nat} (h : lowestFree m = some e) : e < 32 ∧ entryState m e = 0 := by
  unfold lowestFree at h
  refine ⟨?_, by simpa using List.find?_some h⟩
  simpa [entryNumbers] using List.mem_of_find?_eq_some h

/-- The lowest FILLED entry with a serial is one of the 32. -/
theorem filledWith_lt {m : Memory} {serial e : Nat} (h : filledWith m serial = some e) :
    e < 32 ∧ entryState m e = 1 ∧ entrySerial m e = serial := by
  unfold filledWith at h
  refine ⟨?_, by simpa using List.find?_some h⟩
  simpa [entryNumbers] using List.mem_of_find?_eq_some h

@[simp] theorem recordWords_length (i : StandNo) (r : SpliceRecord) : (recordWords i r).length = 16 := rfl

theorem clearPending_frame (i : StandNo) (s : State) : RecordFrame s (clearPending i s) :=
  (modStand_records_frame i _ s).trans (modRecords_frame _ _)

theorem placeRecord_frame (i : StandNo) (r : SpliceRecord) {e : Nat} (he : e < 32) (s : State) :
    RecordFrame s (placeRecord i r e s) := by
  refine ((setMem_table_frame s (recordBase e) (recordWords i r) ?_ ?_).trans (clearPending_frame i _)).trans
    ((raise_frame _ _).trans (recordEvent_frame i _))
  · simp only [recordBase]; omega
  · simp only [recordBase, recordWords_length]; omega

theorem placeAll_frame (is : List StandNo) (s : State) : RecordFrame s (placeAll is s) := by
  induction is generalizing s with
  | nil => exact .refl s
  | cons i rest ih =>
    unfold placeAll
    split
    · exact ih s
    · split
      · exact .refl s
      · rename_i e he
        exact (placeRecord_frame i _ (lowestFree_lt he).1 s).trans (ih _)

/-- Everything that a placement pass leaves as it is. -/
theorem placementPass_frame (trigger : Option StandNo) (s : State) : RecordFrame s (placementPass trigger s) := by
  unfold placementPass
  refine (placeAll_frame s.records.order s).trans ?_
  simp only
  split
  · split
    · exact raise_frame _ _
    · exact .refl _
  · exact .refl _

/-! ### Creating, flagging and closing a record (R166 to R169) -/

theorem fillPending_frame (i : StandNo) (q : PendingRecord) (s : State) : RecordFrame s (fillPending i q s) :=
  (modStand_records_frame i _ s).trans (modRecords_frame _ _)

theorem dropRecord_frame (i : StandNo) (s : State) : RecordFrame s (dropRecord i s) :=
  modStand_records_frame i _ s

theorem takeSerial_frame (s : State) : RecordFrame s (takeSerial s) := modRecords_frame _ s

/-- Everything that the opening of a record leaves as it is. -/
theorem openRecord_frame (i : StandNo) (s : State) : RecordFrame s (openRecord i s) := by
  unfold openRecord
  refine (takeSerial_frame s).trans ?_
  simp only
  split
  · exact (fillPending_frame i _ _).trans (recordEvent_frame i _)
  · exact dropRecord_frame i _

/-- Everything that the creation of an ABORTED record leaves as it is. -/
theorem createAborted_frame (i : StandNo) (cause : AbortCause) (s : State) :
    RecordFrame s (createAborted i cause s) := by
  unfold createAborted
  refine (takeSerial_frame s).trans ?_
  simp only
  split
  · exact ((fillPending_frame i _ _).trans (recordEvent_frame i _)).trans (placementPass_frame _ _)
  · exact (dropRecord_frame i _).trans (recordEvent_frame i _)

theorem modOpen_frame (i : StandNo) (f : SpliceRecord → SpliceRecord) (s : State) :
    RecordFrame s (modOpen i f s) := by
  unfold modOpen
  split
  · split
    · exact modStand_records_frame i _ s
    · exact .refl s
  · exact .refl s

/-- Everything that the closing of a record leaves as it is. -/
theorem closeRecord_frame (i : StandNo) (o : RecordOutcome) (cause : Option AbortCause) (s : State) :
    RecordFrame s (closeRecord i o cause s) := by
  unfold closeRecord
  split
  · split
    · exact ((modStand_records_frame i _ s).trans (recordEvent_frame i _)).trans (placementPass_frame _ _)
    · exact .refl s
  · exact .refl s

/-! ### Retirement (R143, R147, R173 to R175) -/

@[simp] theorem retiredWord_lost (w : Word) : retiredWord w .lost = w &&& 0x03FF3700#32 ||| 3#32 := rfl

@[simp] theorem retiredWord_delivered (w : Word) (copies : Nat) (span : Option (Word × Word)) :
    retiredWord w (.delivered copies span) =
      w &&& 0x03FF3700#32 ||| (if span.isSome then 0x0C000002#32 else 0x04000002#32) := by
  have plain : packWord [⟨0, 8, 2⟩, ⟨26, 1, 1⟩, ⟨27, 1, 0⟩] = 0x04000002#32 := by decide
  have spanned : packWord [⟨0, 8, 2⟩, ⟨26, 1, 1⟩, ⟨27, 1, 1⟩] = 0x0C000002#32 := by decide
  cases span <;> simp [retiredWord, placedState, isDelivered, Retirement.span, flag, plain, spanned]

theorem writeDelivery_frame (s : State) {e : Nat} (he : e < 32) (result : Retirement) :
    RecordFrame s (s.setMem (writeDelivery s.mem e result)) := by
  cases result with
  | lost => exact .refl s
  | delivered copies span =>
    exact setMem_table_frame s (recordBase e + 36) _ (by simp only [recordBase]; omega)
      (by simp only [recordBase, List.length_cons, List.length_nil]; omega)

theorem entryRetired_frame (s : State) {e : Nat} (he : e < 32) (result : Retirement) :
    RecordFrame s (s.setMem (entryRetired s.mem e result)) := by
  have one (s : State) (w : Word) : RecordFrame s (s.setMem (s.mem.writeWord (recordBase e) w)) := by
    have h := setMem_table_frame s (recordBase e) [w] (by simp only [recordBase]; omega)
      (by simp only [recordBase, List.length_singleton]; omega)
    simpa [Memory.writeWords, Memory.writeWord] using h
  exact (writeDelivery_frame s he result).trans (one _ _)

/-- Everything that a retirement leaves as it is. -/
theorem applyRetirement_frame (serial : Nat) (i : StandNo) (result : Retirement) (s : State) :
    RecordFrame s (applyRetirement serial i result s) := by
  have unmatched (s : State) := (modStand_records_frame i (fun d =>
    { d.records with report := some ⟨serial, result⟩, unmatchedCount := d.records.unmatchedCount + 1 }) s).trans
      (recordEvent_frame i _)
  have inTable : RecordFrame s (match filledWith s.mem serial with
      | some e => recordEvent i (s.setMem (entryRetired s.mem e result))
      | none => recordEvent i (s.modStand i fun d => { d with records :=
          { d.records with report := some ⟨serial, result⟩, unmatchedCount := d.records.unmatchedCount + 1 } })) := by
    split
    · rename_i e he
      exact (entryRetired_frame s (filledWith_lt he).1 result).trans (recordEvent_frame i _)
    · exact unmatched s
  unfold applyRetirement
  simp only
  split
  · split
    · exact (modStand_records_frame i _ s).trans (recordEvent_frame i _)
    · exact inTable
  · exact inTable

theorem retireLost_frame (es : List TrackEntry) (s : State) : RecordFrame s (retireLost es s) := by
  unfold retireLost
  induction es generalizing s with
  | nil => exact .refl s
  | cons e rest ih => exact (applyRetirement_frame e.serial e.stand .lost s).trans (ih _)

theorem retireDelivered_frame (es : List TrackEntry) (s : State) : RecordFrame s (retireDelivered es s) := by
  unfold retireDelivered
  induction es generalizing s with
  | nil => exact .refl s
  | cons e rest ih =>
    exact ((applyRetirement_frame e.serial e.stand _ s).trans (raise_frame _ _)).trans (ih _)

end Sys2Proof.Machine
end

