-- ==== Sys2Proof/Laws/LineCount.lean ====
section
/-!
SUPPORT. What a copy boundary and a change of the line count can do: the frame of the tracker's work, the line reference
after a boundary, and one lemma with every case for each consequence of a step of the line count.
-/
namespace Sys2Proof.Machine

/-! ### Copy boundaries -/

/-- What the tracker's work at a boundary leaves as it was, beside the tracker and the records. -/
structure BoundaryFrame (s t : State) : Prop where
  line    : t.line = s.line
  safe    : t.safe = s.safe
  arbiter : t.arbiter = s.arbiter
  phases  : t.phases = s.phases
  free    : t.free = s.free
  pending : t.pending = s.pending
  stand   : ∀ j, t.stand j =
    { s.stand j with records := (t.stand j).records, updateCount := (t.stand j).updateCount }

theorem BoundaryFrame.trans {s t u : State} (h : BoundaryFrame s t) (k : BoundaryFrame t u) : BoundaryFrame s u where
  line := k.line.trans h.line
  safe := k.safe.trans h.safe
  arbiter := k.arbiter.trans h.arbiter
  phases := k.phases.trans h.phases
  free := k.free.trans h.free
  pending := k.pending.trans h.pending
  stand j := by rw [k.stand j, h.stand j]

theorem RecordFrame.boundary {s t : State} (h : RecordFrame s t) : BoundaryFrame s t :=
  ⟨h.line, h.safe, h.arbiter, h.phases, h.free, h.pending, h.stand⟩

/-- A change of the tracker alone. -/
theorem BoundaryFrame.modTracker (f : Tracker → Tracker) (s : State) : BoundaryFrame s (s.modTracker f) :=
  ⟨rfl, rfl, rfl, rfl, rfl, rfl, fun _ => rfl⟩

theorem queueStep_frame (f : Fate) (s : State) : BoundaryFrame s (queueStep f s).1 := by
  unfold queueStep
  dsimp only
  split <;> exact ⟨rfl, rfl, rfl, rfl, rfl, rfl, fun _ => rfl⟩

/-- The tracker's work at a boundary reaches the tracker and the records alone (R146 to R154). -/
theorem trackBoundary_frame (cb n : Word) (s : State) : BoundaryFrame s (trackBoundary cb n s) :=
  (BoundaryFrame.modTracker _ s).trans <| (retireDelivered_frame _ _).boundary.trans <|
    (queueStep_frame _ _).trans (BoundaryFrame.modTracker _ _)

/-- A synthetic boundary changes the line reference as R8 and R10 say, and the tracker's work leaves it. -/
theorem makeSynthetic_line (cb : Word) (s : State) : (makeSynthetic cb s).line = s.line.syntheticBoundary cb := by
  simp only [makeSynthetic, handBoundary, touchLine_line]
  rw [(trackBoundary_frame _ _ _).line]
  unfold raiseCutNotice
  split
  · rfl
  · split <;> rfl

/-- A real boundary changes the line reference as R7 and R8 say. -/
theorem makeReal_line (cb : Word) (s : State) : (makeReal cb s).line = s.line.realBoundary cb := by
  simp only [makeReal, handBoundary, touchLine_line]
  rw [(trackBoundary_frame _ _ _).line]
  rfl

/-- When a synthetic boundary is due, and where it then lies (R9). -/
theorem syntheticDue_eq_some {l : LineRef} {cb : Word} :
    syntheticDue l = some cb ↔ ∃ ref, l.boundaryRef = some ref ∧
      atOrAfter l.lineCount (syntheticThreshold l.params ref) = true ∧ cb = ref + BitVec.ofNat 32 l.params.cutoff := by
  unfold syntheticDue
  split
  · next h => exact ⟨(fun h' => nomatch h'), fun ⟨_, hr, _⟩ => nomatch h.symm.trans hr⟩
  · next ref h =>
    split
    · next ht =>
      exact ⟨fun h' => ⟨ref, h, ht, (Option.some.inj h').symm⟩,
        fun ⟨r, hr, _, hc⟩ => by rw [hc, Option.some.inj (h.symm.trans hr)]⟩
    · next ht => exact ⟨(fun h' => nomatch h'), fun ⟨r, hr, hd, _⟩ => absurd (Option.some.inj (h.symm.trans hr) ▸ hd) ht⟩

/-! ### The consequences of a change of the line count -/

/-- The stall check does nothing, or the stand's spindle is LOST with its reference cleared and noticed (R57). -/
theorem stallCheck_cases (i : StandNo) (s : State) :
    stallCheck i s = s ∨ (s.phase i).isMeasuring = true ∧ (s.stand i).spindle.stalled s.line.lineCount = true ∧
      stallCheck i s = raise .diameterLost (modSpindle i (fun x => { x with validity := .lost, ref := none }) s) := by
  unfold stallCheck
  split
  · exact .inr ⟨‹_ ∧ _›.1, ‹_ ∧ _›.2, rfl⟩
  · exact .inl rfl

/-- The knife check does nothing, or starts a waiting knife whose distance is reached (R126). -/
theorem checkKnife_cases (i : StandNo) (s : State) :
    checkKnife i s = s ∨ s.phase i = .cutting ∧ (s.stand i).paste.knife = .wait ∧ knifeDistance s i = true ∧
      checkKnife i s = startKnife i s := by
  unfold checkKnife
  split
  · exact .inr ⟨‹_ ∧ _ ∧ _›.1, ‹_ ∧ _ ∧ _›.2.1, ‹_ ∧ _ ∧ _›.2.2, rfl⟩
  · exact .inl rfl

/-- The last nip is kept, goes out of reach forward, or moves back by one going backward (R136). -/
theorem ageLastNip_cases (forward : Bool) (s : State) :
    (ageLastNip forward s).arbiter = s.arbiter ∨
    (forward = true ∧ s.arbiter.lastNipValid = true ∧
      (ageLastNip forward s).arbiter = { s.arbiter with lastNipValid := false }) ∨
    (forward = false ∧ s.arbiter.lastNipValid = true ∧
      (ageLastNip forward s).arbiter = { s.arbiter with lastNip := s.arbiter.lastNip - 1 }) := by
  unfold ageLastNip
  simp only [State.modArbiter_arbiter]
  split
  · split
    · split <;> simp_all
    · split <;> simp_all
  · exact .inl rfl

end Sys2Proof.Machine
end

