-- ==== Sys2Proof/Laws/Sequence.lean ====
section
/-!
SUPPORT. What the arbiter, the automatic start, the speed sample, the fire point and the run queue can do: one lemma
each with every case of the operation.
-/
namespace Sys2Proof.Machine

/-! ### The clearance arbiter -/

/-- The winner of an evaluation is a requester. -/
theorem winner_requested {s : State} {i : StandNo} (h : winner s = some i) : s.arbiter.requested i = true := by
  have key : ∀ (is : List StandNo) (best : Option StandNo),
      (∀ j, best = some j → s.arbiter.requested j = true) →
      ∀ j, is.foldl (moreUrgent s) best = some j → s.arbiter.requested j = true := by
    intro is
    induction is with
    | nil => exact fun best hb j hj => hb j hj
    | cons k rest ih =>
      intro best hb j hj
      refine ih (moreUrgent s best k) (fun m hm => ?_) j hj
      unfold moreUrgent at hm
      split at hm
      · rename_i hk
        split at hm
        · simpa [← Option.some.inj hm] using hk
        · rename_i b
          split at hm
          · simpa [← Option.some.inj hm] using hk
          · exact hb m hm
      · exact hb m hm
  exact key standNumbers none (fun _ h => nomatch h) i h

/-- Everything that an evaluation can do (R137): nothing, or one grant, which needs the clearance free, the distance met
and a request. -/
theorem evaluate_cases (s : State) :
    evaluate s = s ∨ ∃ i, s.arbiter.holder = none ∧ distanceMet s = true ∧ winner s = some i ∧
      s.arbiter.requested i = true ∧ evaluate s = grant i s := by
  unfold evaluate
  split
  · rename_i h
    split
    · rename_i i hi
      exact .inr ⟨i, h.1, h.2, hi, winner_requested hi, rfl⟩
    · exact .inl rfl
  · exact .inl rfl

/-- Nothing is granted while a stand holds the clearance. -/
theorem evaluate_held {s : State} {i : StandNo} (h : s.arbiter.holder = some i) : evaluate s = s := by
  simp [evaluate, h]

/-- What a grant does to the arbiter (R137). -/
theorem grant_arbiter (i : StandNo) (s : State) :
    (grant i s).arbiter = { s.arbiter with
      requests := s.arbiter.requests.set i.val false i.isLt, holder := some i, grants := s.arbiter.grants + 1 } := by
  simp [grant]

/-- What a grant does to the stands: the winner enters ARMED (R137). -/
theorem grant_phase (i j : StandNo) (s : State) : (grant i s).phase j = if j = i then .armed else s.phase j := by
  simp [grant, enter_phase]

/-- A release without a nip acts only for the holder (R139). -/
theorem releaseWithoutNip_cases (i : StandNo) (s : State) :
    (s.arbiter.holder ≠ some i ∧ releaseWithoutNip i s = s) ∨
      (s.arbiter.holder = some i ∧ releaseWithoutNip i s =
        evaluate (s.modArbiter fun a => { a with holder := none, releases := satInc max32 a.releases })) := by
  unfold releaseWithoutNip
  by_cases h : s.arbiter.holder = some i
  · exact .inr ⟨h, if_pos h⟩
  · exact .inl ⟨h, if_neg h⟩

/-! ### The automatic start -/

/-- Everything that an evaluation of the automatic start can do (R75, R76). -/
theorem evaluateStart_cases (i : StandNo) (s : State) :
    evaluateStart i s = s ∨
      (s.phase i = .prepared ∧ startTest s i = true ∧ evaluateStart i s = enter i .accelerating s) := by
  unfold evaluateStart
  split
  · rename_i h; exact .inr ⟨h.1, h.2, rfl⟩
  · exact .inl rfl

/-! ### The speed sample at one stand -/

/-- Everything that a speed sample can do to a stand, by its state (R81, R82, R89, R101, R102, R110). -/
theorem sampleStep_cases (i : StandNo) (s : State) :
    sampleStep i s = s ∨
      ((s.phase i = .accelerating ∨ s.phase i = .matching ∨ s.phase i = .armed) ∧
        s.line.vLine < s.line.params.vMin ∧ sampleStep i s = abortAttempt i .lineSlow .held s) ∨
      (∃ s1, s.phase i = .accelerating ∧ s.line.params.vMin ≤ s.line.vLine ∧
        s1 = s.modStand i (fun d => d.rampStep s.line.vLine s.safeAsserted) ∧
        (sampleStep i s = s1 ∨ sampleStep i s = enter i .matching s1 ∨
          sampleStep i s = markLost i (enter i .matching s1))) ∨
      ((s.phase i = .matching ∨ s.phase i = .armed ∨ s.phase i = .pasting) ∧
        sampleStep i s = s.modStand i (fun d => d.targetStep s.line.vLine s.safeAsserted)) ∨
      (∃ s1, s.phase i = .winddown ∧ s1 = s.modStand i (fun d => d.winddownStep s.safeAsserted) ∧
        (sampleStep i s = s1 ∨ ((s1.stand i).speed.ref = 0 ∧ sampleStep i s = endWinddown i s1))) := by
  have hp := Classical.em (s.line.vLine < s.line.params.vMin)
  unfold sampleStep
  simp only
  cases hph : s.phase i <;> simp only [decide_eq_true_eq]
  case accelerating =>
    rcases hp with hp | hp
    · exact .inr (.inl ⟨.inl trivial, hp, if_pos hp⟩)
    · refine .inr (.inr (.inl ⟨_, trivial, by omega, rfl, ?_⟩))
      rw [if_neg hp]
      split
      · split
        · exact .inr (.inr rfl)
        · exact .inr (.inl rfl)
      · exact .inl rfl
  case matching =>
    rcases hp with hp | hp
    · exact .inr (.inl ⟨.inr (.inl trivial), hp, if_pos hp⟩)
    · exact .inr (.inr (.inr (.inl ⟨.inl trivial, if_neg hp⟩)))
  case armed =>
    rcases hp with hp | hp
    · exact .inr (.inl ⟨.inr (.inr trivial), hp, if_pos hp⟩)
    · exact .inr (.inr (.inr (.inl ⟨.inr (.inl trivial), if_neg hp⟩)))
  case pasting => exact .inr (.inr (.inr (.inl ⟨.inr (.inr trivial), trivial⟩)))
  case winddown =>
    refine .inr (.inr (.inr (.inr ⟨_, trivial, rfl, ?_⟩)))
    split
    · rename_i h; exact .inr ⟨h, rfl⟩
    · exact .inl rfl
  all_goals exact .inl trivial

/-! ### The fire point -/

/-- Everything that a fire point can be (R119, R120): k = 0, k = 1, or none, in that order of the tests. -/
theorem firePoint_cases (theta tAct p : Nat) :
    (tAct ≤ theta * p / 4096 ∧
      firePoint theta tAct p = some ⟨0, theta * p / 4096 - tAct, theta * p / 4096⟩) ∨
    (theta * p / 4096 < tAct ∧ tAct ≤ theta * p / 4096 + p ∧
      firePoint theta tAct p = some ⟨1, theta * p / 4096 + p - tAct, p + theta * p / 4096⟩) ∨
    (theta * p / 4096 + p < tAct ∧ firePoint theta tAct p = none) := by
  unfold firePoint
  simp only
  split
  · rename_i h; exact .inl ⟨h, rfl⟩
  · split
    · rename_i h k; exact .inr (.inl ⟨by omega, k, rfl⟩)
    · rename_i h k; exact .inr (.inr ⟨by omega, rfl⟩)

/-! ### The run queue -/

/-- Everything that an append can do to the run queue (R149, R150). -/
theorem appendFate_cases (f : Fate) (q : List Run) :
    (q = [] ∧ appendFate f q = ([⟨f, 1⟩], false)) ∨
    ∃ front t, q = front ++ [t] ∧
      ((t.fate = f ∧ t.count < 128 ∧ appendFate f q = (front ++ [{ t with count := t.count + 1 }], false)) ∨
        (¬ (t.fate = f ∧ t.count < 128) ∧ q.length < 32 ∧ appendFate f q = (q ++ [⟨f, 1⟩], false)) ∨
        (¬ (t.fate = f ∧ t.count < 128) ∧ ¬ q.length < 32 ∧ appendFate f q = (degradeAppend f front t, true))) := by
  rcases List.eq_nil_or_concat q with rfl | ⟨front, t, rfl⟩
  · exact .inl ⟨rfl, rfl⟩
  · refine .inr ⟨front, t, by simp, ?_⟩
    simp only [appendFate, List.concat_eq_append, List.getLast?_append, List.getLast?_singleton, Option.some_or,
      List.dropLast_concat, newRun]
    split
    · rename_i h; exact .inl ⟨h.1, h.2, rfl⟩
    · rename_i h
      split
      · rename_i k; exact .inr (.inl ⟨h, k, rfl⟩)
      · rename_i k; exact .inr (.inr ⟨h, k, rfl⟩)

/-- Everything that a pop can do to the run queue (R151). -/
theorem popFate_cases (g : Nat) (q : List Run) :
    (¬ g < queueSum q ∧ popFate g q = (q, none)) ∨
    ∃ h rest, q = h :: rest ∧ g < queueSum q ∧
      popFate g q = (if h.count ≤ 1 then rest else { h with count := h.count - 1 } :: rest, some h.fate) := by
  cases q with
  | nil => exact .inl ⟨by simp [queueSum], rfl⟩
  | cons h rest =>
    simp only [popFate]
    split
    · rename_i k; exact .inr ⟨h, rest, rfl, k, rfl⟩
    · rename_i k; exact .inl ⟨k, rfl⟩

end Sys2Proof.Machine
end

