-- ==== Sys2Proof/Tests/Slice0.lean ====
section
/-!
SUPPORT. The model's own tests. Expected values come from the worked examples and the rules of spec/, named in each
docstring. The second half holds the witnesses: states and operands that meet the hypotheses of the statements.
-/
namespace Sys2Proof.Tests
open Sys2Proof Sys2Proof.Machine

set_option Elab.async false

/-! ### The bench: a part with one stand at work -/

/-- The ready reel of the example of section 3.6. -/
def reel : Reel := ⟨41507, 12500, 760, 70, 1500⟩

/-- What a state holds beside its phase, for a state that keeps every law of Safety.lean. Every deadline is at the bench's
µs clock, 5,000. -/
def benchStand (p : Phase) : Stand :=
  let d := Stand.atReset 0
  { d with
    io := { d.io with nextPeriod := 5000 }
    running := if p = .idle then none else some ⟨reel, none⟩
    ready := if p = .running then none else some reel
    setup := { d.setup with
      edgeSpindle := .rise, edgeTab := .rise, edgeHome := .rise, breakEnable := #v[true, true, false, false] }
    spindle := { d.spindle with
      ref := some 68640, cp := some 31370, history := [31400, 31410, 31380, 31370], estimate := 9992, validity := .valid }
    tab := { d.tab with
      last := some ⟨4294722296, 68800⟩, pp := some 250000
      deadline := if p = .matching ∨ p = .armed then some 5000 else none }
    seq := { d.seq with
      phase := p
      matchDeadline := if p = .matching then some 5000 else none
      indexDeadline := if p = .indexing then some 5000 else none
      target := if p = .winddown then some .held else none
      attempt := ⟨some 5000, some 5000, some 1, some 99000, some 5000⟩ }
    speed := { d.speed with wdStep := if p = .winddown then some 15 else none }
    paste := { d.paste with
      oneShot := if p = .pasting ∨ p = .cutting then .active else .idle
      dwellEnd := if p = .pasting ∨ p = .cutting then some 5000 else none
      knife := if p = .cutting then .wait else .idle } }

/-- A part whose stand 0 is in phase `p`, changed by `f`; INIT is 1, so that no block is rewritten. -/
def bench (p : Phase) (f : Stand → Stand := id) : State :=
  let s := State.reset
  { s with
    line := { s.line with
      lineCount := 100000, usClock := 5000, nextSample := 5000, prevCount := 99000, v := 400, vLine := 400
      boundaryRef := some 96000 }
    stands := s.stands.set 0 (f (benchStand p))
    arbiter := { s.arbiter with holder := if p = .armed ∨ p = .pasting then some 0 else none }
    host := { s.host with attention := 0x3FFFF } }

/-- A request of a kind stands POSTED in a slot with the body's words. -/
def post (slot : Slot) (kind : Nat) (body : List Word) (s : State) : State :=
  s.setMem ((s.mem.writeWord (slotBase slot) (BitVec.ofNat 32 (1 + 256 * kind))).writeWords (slotBase slot + 4) body)

/-- The state after a command. -/
def after (c : Instr) (s : State) : State :=
  match exec c s with
  | .next t => t
  | .fault _ | .refused _ => s

/-- The result code in a slot's header. -/
def resultOf (slot : Slot) (s : State) : Nat := bitsOf (s.header slot) 16 8

/-- The twelve phases. -/
def phases : List Phase :=
  [.idle, .running, .prepared, .held, .accelerating, .matching, .armed, .pasting, .cutting, .indexing, .winddown, .faulted]

/-! ### WellFormed refuses ill-formed commands -/

/-- R177: an access at a byte offset that is not word-aligned is none of the bus. -/
theorem test_wf_misaligned_table_write : Instr.wellFormed (.hostTableWrite 2 5) = false := by decide +kernel

/-- R177: a write to ATTENTION is a row of its own. -/
theorem test_wf_attention_is_defined : Instr.wellFormed (.undefinedRegisterWrite 0 5) = false := by decide +kernel

/-- R187: a write to UNIT with bit 0 set is a device reset. -/
theorem test_wf_unit_write_is_reset : Instr.wellFormed (.undefinedRegisterWrite 0x10 1) = false := by decide +kernel

/-- R187: a write to UNIT with bit 0 clear is no device reset. -/
theorem test_wf_unit_write_without_reset : Instr.wellFormed (.deviceReset (.unitWrite 2)) = false := by decide +kernel

/-! ### Worked examples: arithmetic -/

/-- Section 4.5: the remaining lengths at an estimate of 10,000. -/
theorem test_remaining_lengths :
    remainingLength 10000 70 1500 = 109675500 ∧ remainingLength 10000 70 780 = 111517375 ∧
      remainingLength 2066 70 1500 = 2264595 ∧ remainingLength 2065 70 1500 = 2259960 ∧
      remainingLength 1498 70 760 = 1869705 := by decide +kernel

/-- Section 4.3: the estimates of the example. -/
theorem test_estimates :
    estimateOf [31400, 31410, 31380, 31370] = 9992 ∧ estimateOf [31410, 31380, 31370, 31360] = 9989 ∧
      estimateOf [31370, 31360, 31350, 31340] = 9981 := by decide +kernel

/-- Section 4.3: the judgements of the example. -/
theorem test_ratio_tests :
    ratioTest 31360 31370 = .accepted ∧ ratioTest 62700 31360 = .corrected ∧ ratioTest 15600 31350 = .rejected ∧
      ratioTest 15740 31350 = .rejected := by decide +kernel

/-- Section 6.3: deviations and trims of the example. -/
theorem test_trim_example :
    deviation 10000 31200 = 7 ∧ deviation 10000 31290 = 4 ∧ deviation 10000 31600 = -6 ∧ correctTrim 0 7 = -3 ∧
      correctTrim (-3) 4 = -5 ∧ correctTrim (-6) (-6) = -3 ∧ rampTarget 1248 (-3) = 1244 ∧ rampTarget 1248 (-6) = 1241 := by
  decide +kernel

/-- Section 7.2: the three fire points of the example. -/
theorem test_fire_points :
    firePoint 1024 80000 250000 = some ⟨1, 232500, 312500⟩ ∧ firePoint 3072 80000 250000 = some ⟨0, 107500, 187500⟩ ∧
      firePoint 0 300000 250000 = none := by decide +kernel

/-- Section 9.4: boundary 301 and boundary 305 of the example, and the first append of the degraded queue. -/
theorem test_gate_queue :
    popFate 4 (appendFate .divert [⟨.pass, 4⟩]).1 = ([⟨.pass, 3⟩, ⟨.divert, 1⟩], some .pass) ∧
      popFate 4 (appendFate .pass [⟨.divert, 2⟩, ⟨.pass, 2⟩]).1 = ([⟨.divert, 1⟩, ⟨.pass, 3⟩], some .divert) ∧
      degradeAppend .divert [⟨.pass, 2⟩, ⟨.divert, 1⟩] ⟨.pass, 1⟩ = [⟨.pass, 2⟩, ⟨.divert, 3⟩] ∧
      degradeAppend .pass [⟨.pass, 2⟩] ⟨.divert, 1⟩ = [⟨.pass, 2⟩, ⟨.divert, 2⟩] := by decide +kernel

/-- Section 9.3: the overlap tests of the example. -/
theorem test_overlaps :
    (⟨1, 3, 1148000, 1158000, 0, none⟩ : TrackEntry).overlaps 1140000 6000 = false ∧
      (⟨1, 3, 1148000, 1158000, 0, none⟩ : TrackEntry).overlaps 1146000 6000 = true ∧
      (⟨1, 3, 1148000, 1158000, 0, none⟩ : TrackEntry).overlaps 1158000 6000 = false := by decide +kernel

/-- Section 11.4: the top notice of the example, event by event. -/
theorem test_top_notice :
    ({ State.reset.host with enable := 0xFFFF, notice := 0x080001 } : HostSide).topNotice = 0 ∧
      ({ State.reset.host with enable := 0xFFFF, notice := 0x080801 } : HostSide).topNotice = 11 ∧
      ({ State.reset.host with enable := 0xFFFF, notice := 0x080000 } : HostSide).topNotice = 63 ∧
      ({ State.reset.host with enable := 0xFFFFFF, notice := 0x080000 } : HostSide).topNotice = 19 := by decide +kernel

/-- R164: after 65,535 comes 1. -/
theorem test_serial_wraps : serialAfter 65535 = 1 ∧ serialAfter 1 = 2 := by decide +kernel

/-! ### Commands -/

/-- R1: a place forward from the last pair of the sequence, and one backward that wraps. -/
theorem test_quadrature_steps :
    (after (.quadratureTransition true false) (bench .idle)).line.lineCount = 100001 ∧
      (after (.quadratureTransition false true) (State.reset)).line.lineCount = 0xFFFFFFFF := by decide +kernel

/-- Section 1.3: the 16th illegal transition of a window sets the flag, and LINE_FAULT ends an attempt (R91). -/
theorem test_quadrature_sixteenth_illegal :
    let s := bench .matching
    let t := after (.quadratureTransition true true) { s with line := { s.line with windowCount := 15 } }
    t.line.encoderFault = true ∧ t.host.notice.getLsbD 10 = true ∧ t.phase 0 = .winddown ∧
      (t.stand 0).seq.cause = some .lineFault := by decide +kernel

/-- R4: the travel since the last sample is V, and is clamped. -/
theorem test_speed_sample :
    (after .speedSample (bench .idle)).line.v = 1000 ∧
      (after .speedSample { bench .idle with line := { (bench .idle).line with prevCount := 200000 } }).line.v = -4000 ∧
      (after .speedSample (bench .idle)).line.nextSample = 15000 := by decide +kernel

/-- Section 6.6: the second winddown of the example ends at its last sample in HELD. -/
theorem test_speed_sample_winddown :
    let f (r : Nat) (d : Stand) : Stand := { d with speed := { d.speed with ref := r } }
    ((after .speedSample (bench .winddown (f 25))).stand 0).speed.ref = 10 ∧
      (after .speedSample (bench .winddown (f 10))).phase 0 = .held := by decide +kernel

/-- Section 1.2: a window that held no illegal transition clears the flag, another does not (R5). -/
theorem test_window_end :
    let s := bench .idle
    let l := { s.line with encoderFault := true, windowEndDue := true }
    (after .encoderFaultWindowEnd { s with line := l }).line.encoderFault = false ∧
      (after .encoderFaultWindowEnd { s with line := { l with windowCount := 1 } }).line.encoderFault = true := by decide +kernel

/-- Section 1.4: the first two CUT edges of the example. -/
theorem test_cut_edges :
    let s := bench .idle
    let l := { s.line with
      boundaryRef := some 100000, copyNumber := 41, lineCount := 106010, params := { s.line.params with cutoff := 6000 } }
    let t := after .cutEdge { s with line := l }
    let u := after .cutEdge { s with line := { l with boundaryRef := some 106010, lineCount := 107500 } }
    t.line.copyNumber = 42 ∧ t.line.boundaryRef = some 106010 ∧ u.line.copyNumber = 41 ∧ u.line.spuriousCuts = 1 := by
  decide +kernel

/-- Section 4.3: mark 1 of the example. -/
theorem test_spindle_mark_accepted :
    let t := after (.spindleMark 0) (bench .running)
    (t.stand 0).spindle.estimate = 9989 ∧ (t.stand 0).spindle.cp = some 31360 := by decide +kernel

/-- R56: the fourth rejection in a row loses the diameter. -/
theorem test_spindle_mark_lost :
    let f (d : Stand) : Stand := { d with spindle := { d.spindle with ref := some 84400, rejects := 3 } }
    let t := after (.spindleMark 0) (bench .running f)
    (t.stand 0).spindle.validity = .lost ∧ t.host.notice.getLsbD 14 = true := by decide +kernel

/-- Section 6.3: the first tab mark of the example, a reel of D_full 10,000 with C_tab 31,200. -/
theorem test_tab_mark_matching :
    let f (d : Stand) : Stand := { d with ready := some { reel with dFull := 10000 } }
    let t := after (.tabMark 0) (bench .matching f)
    (t.stand 0).speed.lastDev = some 7 ∧ (t.stand 0).speed.trim = -3 ∧ (t.stand 0).tab.pp = some 250000 := by decide +kernel

/-- Section 7.2: the arming mark of the example commits the fire point, k = 1. -/
theorem test_tab_mark_arming :
    let f (d : Stand) : Stand := { d with setup := { d.setup with theta := 1024, tAct := 80000 } }
    let t := after (.tabMark 0) (bench .armed f)
    t.phase 0 = .pasting ∧ (t.stand 0).seq.attempt.fireTime = some (5000 + 232500) ∧
      (t.stand 0).seq.attempt.nipTime = some (5000 + 312500) ∧ (t.stand 0).paste.dwellEnd = some (5000 + 332500) := by
  decide +kernel

/-- R86: the mark completes the index in INDEXING alone. -/
theorem test_index_home :
    (after (.indexHomeMark 0) (bench .indexing)).phase 0 = .running ∧
      ((after (.indexHomeMark 0) (bench .indexing)).stand 0).spindle.estimate = 12500 ∧
      (after (.indexHomeMark 0) (bench .faulted)).phase 0 = .faulted := by decide +kernel

/-- R93: a web break by the stand's state. -/
theorem test_web_break :
    (after (.webBreak 0 1) (bench .prepared)).phase 0 = .idle ∧
      ((after (.webBreak 0 1) (bench .winddown)).stand 0).seq.target = some .idle ∧
      (after (.webBreak 0 1) (bench .pasting)).phase 0 = .faulted := by decide +kernel

/-- Section 2.3: BREAK 2 released while BREAK 1 is asserted does not re-arm, BREAK 1 released then does. -/
theorem test_break_release :
    let f (l1 l2 : Bool) (d : Stand) : Stand := { d with io := { d.io with
      breakArmed := false, inputs := (d.io.inputs.put (.brk 0) ⟨l1, l1, l1, 0⟩).put (.brk 1) ⟨l2, l2, l2, 0⟩ } }
    ((after (.breakRelease 0 1) (bench .running (f true true))).stand 0).io.breakArmed = false ∧
      ((after (.breakRelease 0 0) (bench .running (f true false))).stand 0).io.breakArmed = true := by decide +kernel

/-- R92: SAFE aborts a stand in PASTING and faults one in CUTTING. -/
theorem test_safe_assertion :
    (after .safeAssertion (bench .pasting)).phase 0 = .winddown ∧
      (after .safeAssertion (bench .cutting)).phase 0 = .faulted ∧
      (after .safeAssertion (bench .held)).host.notice.getLsbD 12 = true := by decide +kernel

/-- R24: a released SAFE gives no command by itself. -/
theorem test_safe_release :
    let s := { bench .held with safe := ⟨false, false, false, 0⟩ }
    (after .safeRelease s).safeAsserted = false ∧ (after .safeRelease s).stands = s.stands := by decide +kernel

/-- Section 2.5: the period start at 12,000 of the example takes the pending value. -/
theorem test_drive_ref_period :
    let f (d : Stand) : Stand := { d with io := { d.io with pendingDuty := 1200, duty := 1000 } }
    let t := after (.driveRefPeriodStart 0) (bench .accelerating f)
    (t.stand 0).io.duty = 1200 ∧ (t.stand 0).io.driveOut = true ∧ (t.stand 0).io.nextPeriod = 9000 := by decide +kernel

/-- R26: duty 4000 keeps the output active for the whole period, a smaller one ends after that many µs. -/
theorem test_drive_ref_active_end :
    let f (n : Nat) (d : Stand) : Stand := { d with io := { d.io with duty := n, driveOut := true, nextPeriod := 5000 } }
    ((after (.driveRefActiveEnd 0) (bench .accelerating (f 4000))).stand 0).io.driveOut = true ∧
      ((after (.driveRefActiveEnd 0) (bench .accelerating (f 3999))).stand 0).io.driveOut = false := by decide +kernel

/-- R31: the jog hold ends at its deadline, and not before. -/
theorem test_jog_deadline :
    let f (w : Word) (d : Stand) : Stand := { d with io := { d.io with jogDeadline := some w } }
    ((after (.jogHoldDeadline 0) (bench .running (f 5000))).stand 0).io.jogDeadline = none ∧
      ((after (.jogHoldDeadline 0) (bench .running (f 5001))).stand 0).io.jogDeadline = some 5001 := by decide +kernel

/-- R69, R82, R87: three deadlines and their causes. -/
theorem test_deadlines :
    ((after (.tabDeadline 0) (bench .armed)).stand 0).seq.cause = some .markLost ∧
      ((after (.matchDeadline 0) (bench .matching)).stand 0).seq.cause = some .matchTimeout ∧
      ((after (.indexDeadline 0) (bench .indexing)).stand 0).seq.cause = some .indexTimeout := by decide +kernel

/-- Section 7.2: the one-shot goes ACTIVE at the fire time, and back to IDLE at the dwell end. -/
theorem test_one_shot :
    let f (d : Stand) : Stand := { d with paste := { d.paste with oneShot := .delay } }
    ((after (.fireTime 0) (bench .pasting f)).stand 0).paste.oneShot = .active ∧
      ((after (.dwellEnd 0) (bench .cutting)).stand 0).paste.oneShot = .idle := by decide +kernel

/-- R124, section 7.2: the nip enters CUTTING with the knife in WAIT, and releases the clearance with this nip. -/
theorem test_nip :
    let t := after (.nip 0) (bench .pasting)
    t.phase 0 = .cutting ∧ (t.stand 0).paste.knife = .wait ∧ t.arbiter.holder = none ∧ t.arbiter.lastNip = 100000 ∧
      t.records.nextSerial = 2 := by decide +kernel

/-- Section 9.3: the zone of a nip at 1,000,000. -/
theorem test_nip_zone :
    let s := bench .pasting fun d => { d with setup := { d.setup with pathLength := 150000 } }
    let t := after (.nip 0) { s with line := { s.line with lineCount := 1000000 } }
    t.tracker.entries = [⟨1, 0, 1148000, 1158000, 0, none⟩] := by decide +kernel

/-- Section 7.4: the knife fired late, and its end. -/
theorem test_knife :
    let t := after (.knifeLateDeadline 0) (bench .cutting)
    let f (d : Stand) : Stand := { d with paste := { d.paste with knife := .active, knifeEnd := some 5000 } }
    let u := after (.knifeEnd 0) (bench .cutting f)
    (t.stand 0).paste.knifeLateFlag = true ∧ (t.stand 0).paste.knifeEnd = some 35000 ∧ u.phase 0 = .indexing ∧
      (u.stand 0).seq.indexDeadline = some 20005000 := by decide +kernel

/-- R11: V_min is clamped, and a cutoff out of range refuses the whole request. -/
theorem test_line_setup :
    let t := after .lineSetup (post .line 0x01 [0x20, 0, 0, 0, 0, 0, 5] (bench .idle))
    let u := after .lineSetup (post .line 0x01 [0x21, 999, 0, 0, 0, 0, 5] (bench .idle))
    t.line.params.vMin = 10 ∧ resultOf .line t = 2 ∧ u.line.params.vMin = 300 ∧ resultOf .line u = 4 := by decide +kernel

/-- R155, R156: GATE OVERRIDE makes its mode pending, and FREEZE acts at once. -/
theorem test_gate_requests :
    let t := after .gateOverride (post .line 0x02 [2] (bench .idle))
    let u := after .freeze (post .line 0x02 [3] (bench .idle))
    t.tracker.mode = .normal ∧ t.tracker.pendingMode = some .forcePass ∧ u.tracker.mode = .frozen ∧
      u.tracker.frozenLevel = some .divert := by decide +kernel

/-- R157: CLEAR TRACKING empties list and queue, and reports the loss of a splice without a record. -/
theorem test_clear_tracking :
    let s := bench .idle
    let t := after .clearTracking (post .line 0x03 []
      { s with tracker := { s.tracker with entries := [⟨9, 2, 0, 1, 0, none⟩], queue := [⟨.pass, 3⟩] } })
    t.tracker.entries = [] ∧ t.tracker.queue = [] ∧ (t.stand 2).records.report = some ⟨9, .lost⟩ := by decide +kernel

/-- Section 3.6: DECLARE RUNNING 41392 with a current diameter of 6,150. -/
theorem test_declare_running :
    let s := bench .idle fun d => { d with ready := none }
    let t := after (.declareRunning 0) (post (.order 0) 0x10 [1, 41392, 12400, 760, 68, 1400, 6150] s)
    t.phase 0 = .running ∧ (t.stand 0).spindle.estimate = 6150 ∧ (t.stand 0).spindle.validity = .valid := by decide +kernel

/-- Section 3.6: LOAD REEL 41507, and again with a splice diameter of 790. -/
theorem test_load_reel :
    let t := after (.loadReel 0) (post (.order 0) 0x11 [0, 41507, 12500, 760, 70, 1500] (bench .running))
    let u := after (.loadReel 0) (post (.order 0) 0x11 [0, 41507, 12500, 760, 70, 790] (bench .running))
    t.phase 0 = .prepared ∧ resultOf (.order 0) t = 1 ∧ u.phase 0 = .running ∧ resultOf (.order 0) u = 4 := by decide +kernel

/-- R40: CANCEL REEL in PREPARED, and in IDLE. -/
theorem test_cancel_reel :
    (after (.cancelReel 0) (post (.order 0) 0x12 [] (bench .prepared))).phase 0 = .running ∧
      resultOf (.order 0) (after (.cancelReel 0) (post (.order 0) 0x12 [] (bench .idle))) = 7 := by decide +kernel

/-- Section 3.7: a direct change of the TAB edge from FALL to RISE is refused. -/
theorem test_stand_setup_edge_order :
    let s := bench .running fun d => { d with setup := { d.setup with edgeTab := .fall } }
    resultOf (.order 0) (after (.standSetup 0)
      (post (.order 0) 0x13 ([0x4008] ++ List.replicate 3 0 ++ [600000] ++ List.replicate 10 0 ++ [1]) s)) = 6 := by decide +kernel

/-- Section 3.7: TAB to NONE with T_act 600,000 and window 0: ACCEPTED_CLAMPED, stored 500,000 and 1. -/
theorem test_stand_setup_clamps :
    let t := after (.standSetup 0) (post (.order 0) 0x13
      ([0x4208] ++ List.replicate 3 0 ++ [600000] ++ List.replicate 10 0 ++ [0]) (bench .running))
    resultOf (.order 0) t = 2 ∧ (t.stand 0).setup.edgeTab = .none ∧ (t.stand 0).setup.tAct = 500000 ∧
      (t.stand 0).setup.window = 1 := by decide +kernel

/-- R78: SPLICE NOW starts a PREPARED stand, and the line refuses it below V_min. -/
theorem test_splice_now :
    let s := post (.command 0) 0x20 [] (bench .prepared)
    (after (.spliceNow 0) s).phase 0 = .accelerating ∧
      resultOf (.command 0) (after (.spliceNow 0) { s with line := { s.line with vLine := 299 } }) = 9 := by decide +kernel

/-- R88, R90: ABORT in MATCHING at ref 3,010 with T_acc 2,000 (section 6.6): the winddown step is 15. -/
theorem test_abort :
    let f (d : Stand) : Stand := { d with speed := { d.speed with ref := 3010 }, setup := { d.setup with tAcc := 2000 } }
    let t := after (.abort 0) (post (.command 0) 0x21 [] (bench .matching f))
    t.phase 0 = .winddown ∧ (t.stand 0).speed.wdStep = some 15 ∧ (t.stand 0).seq.target = some .held := by decide +kernel

/-- R79: RESUME from HELD. -/
theorem test_resume : (after (.resume 0) (post (.command 0) 0x22 [] (bench .held))).phase 0 = .prepared := by decide +kernel

/-- R95: STAND RESET of a stand in CUTTING. -/
theorem test_stand_reset :
    let t := after (.standReset 0) (post (.command 0) 0x23 [] (bench .cutting))
    t.phase 0 = .idle ∧ (t.stand 0).seq.cause = some .standReset ∧ (t.stand 0).running = none := by decide +kernel

/-- R30: the jog deadline is 250,000 µs ahead, and a splice state refuses the jog. -/
theorem test_jog_index :
    ((after (.jogIndex 0) (post (.command 0) 0x24 [] (bench .running))).stand 0).io.jogDeadline = some 255000 ∧
      resultOf (.command 0) (after (.jogIndex 0) (post (.command 0) 0x24 [] (bench .armed))) = 3 := by decide +kernel

/-- R116: REVISE TIMING stages in ARMED and is active at once in HELD. -/
theorem test_revise_timing :
    let t := after (.reviseTiming 0) (post (.command 0) 0x25 [1, 4095] (bench .armed))
    let u := after (.reviseTiming 0) (post (.command 0) 0x25 [1, 4095] (bench .held))
    (t.stand 0).staged.theta = some 4095 ∧ (t.stand 0).setup.theta = 0 ∧ (u.stand 0).setup.theta = 4095 := by decide +kernel

/-- R29: SET PHASE LINES takes 0 to 7. -/
theorem test_set_phase_lines :
    let t := after (.setPhaseLines 0) (post (.command 0) 0x26 [7] (bench .idle))
    let u := after (.setPhaseLines 0) (post (.command 0) 0x26 [8] (bench .idle))
    (t.stand 0).io.manualValue = 7 ∧ resultOf (.command 0) t = 1 ∧ resultOf (.command 0) u = 4 := by decide +kernel

/-- A WAITING record of stand 5 with serial 7. -/
def waiting : PendingRecord :=
  ⟨⟨7, some .aborted, some .safe, false, false, 1, 2, none, 9000, none, none⟩, .waiting⟩

/-- A part whose stand 5 holds the record. -/
def benchWaiting : State :=
  let s := bench .idle
  { s with
    stands := s.stands.set 5 { (s.stand 5) with records := { (s.stand 5).records with pending := some waiting } }
    records := { s.records with order := [5] } }

/-- R170, R172: RECORDS RETURNED places the record in the lowest FREE entry. -/
theorem test_records_returned :
    let t := after .recordsReturned benchWaiting
    (t.stand 5).records.pending = none ∧ entryState t.mem 0 = 1 ∧ entrySerial t.mem 0 = 7 := by decide +kernel

/-- R179: a written bit adds a member; while INIT is 1 the write is discarded. -/
theorem test_attention_write :
    let s := bench .idle
    (after (.attentionWrite 2) { s with host := { s.host with attention := 1, init := false } }).host.attention = 3 ∧
      (after (.attentionWrite 2) { s with host := { s.host with attention := 1 } }).host.attention = 1 := by decide +kernel

/-- Section 11.4: NOTICE 0x00080801 and a write of 0x00000800. -/
theorem test_notice_writes :
    let s := bench .idle
    let t := { s with host := { s.host with notice := 0x080801 } }
    (after (.noticeWrite 0x800) t).host.notice = 0x080001 ∧ (after (.noticeEnableWrite 0xFF0000FF) t).host.enable = 0xFF ∧
      (after (.noticeLevelWrite 0) t).host.level = 0 := by decide +kernel

/-- R177: a write to an offset without a register has no effect. -/
theorem test_undefined_register_write : after (.undefinedRegisterWrite 0x14 5) (bench .idle) = bench .idle := by decide +kernel

/-- R188: after a pin reset nothing acts but its release, which raises SAFE where SAFE is asserted. -/
theorem test_resets :
    let t := after (.deviceReset .pin) (bench .pasting)
    let u := after (.resetRelease { pinsAtReset with safe := false }) t
    t.phase 0 = .idle ∧ t.host.resetLow = true ∧ after .safeAssertion t = t ∧ u.host.resetLow = false ∧
      u.host.notice = 0x001000 ∧ u.host.init = true := by decide +kernel

/-- R189: the end of the initialisation writes the status blocks: word 31 of line V_min, 300, in word 17. -/
theorem test_initialisation_end :
    let t := after .initialisationEnd State.reset
    t.host.init = false ∧ t.mem.readWord (lineBlockBase + 4 * 17) = 300 ∧ t.mem.readWord (lineBlockBase + 4 * 12) = 5780 :=
  by decide +kernel

/-- R15: the change of an input that is no event moves its level alone. -/
theorem test_input_change :
    let t := after (.inputConditionedChange (.stand 0 .tabB)) (bench .matching)
    (t.stand 0).io.inputs.tabB.level = true ∧ (t.stand 0).tab = ((bench .matching).stand 0).tab := by decide +kernel

/-- R177: a word is stored little-endian. -/
theorem test_host_table_write :
    let s := bench .idle
    let t := after (.hostTableWrite 0x1340 0x01020304) { s with host := { s.host with init := false } }
    t.mem.read 0x1340 = 4 ∧ t.mem.read 0x1343 = 1 := by decide +kernel

/-- R180: a member whose slot is not POSTED is removed alone. -/
theorem test_slot_not_posted :
    let t := after (.slotIntakeNotPosted (.order 2)) (bench .idle)
    t.host.attention = 0x3FFFB ∧ t.host.notice = 0 := by decide +kernel

/-- R182: a kind of another slot is REFUSED_KIND. -/
theorem test_refused_kind :
    resultOf .line (after (.refusedKind .line) (post .line 0x20 [] (bench .idle))) = 5 := by decide +kernel

/-! ### Witnesses: the laws -/

/-- StepKeepsMemoryCanonical: the bench keeps the canonical form of its memory. -/
theorem test_witness_memory : ∀ p ∈ phases, (bench p).mem.wf := by decide +kernel

/-- StepKeepsClearanceLaw (with ReelLaw and PasteLaw below: StepKeepsReelLaw, StepKeepsPasteTimers): the bench
keeps ClearanceLaw in each of the twelve phases. -/
theorem test_witness_clearance_law : ∀ p ∈ phases, ClearanceLaw (bench p) := by
  unfold ClearanceLaw
  decide +kernel

/-- The bench keeps ReelLaw in each of the twelve phases. -/
theorem test_witness_reel_law : ∀ p ∈ phases, ReelLaw (bench p) := by
  unfold ReelLaw Phase.needsReady
  decide +kernel

/-- StepKeepsDriveLaw: the bench keeps DriveLaw in each of the twelve phases. -/
theorem test_witness_drive_law : ∀ p ∈ phases, DriveLaw (bench p) := by
  unfold DriveLaw Phase.isRest Phase.isWaiting
  decide +kernel

set_option synthInstance.maxSize 2000 in
set_option synthInstance.maxHeartbeats 200000 in
/-- StepKeepsBounds: the bench keeps BoundsLaw in each of the twelve phases. -/
theorem test_witness_bounds_law : ∀ p ∈ phases, BoundsLaw (bench p) := by
  unfold BoundsLaw LineParams.inRange Setup.inRange StagedTiming.inRange RunningReel.inRange Reel.inRange
  decide +kernel

/-- StepKeepsDeadlines: the bench keeps DeadlineLaw in each of the twelve phases. -/
theorem test_witness_deadline_law : ∀ p ∈ phases, DeadlineLaw (bench p) := by
  unfold DeadlineLaw Phase.isWaiting
  decide +kernel

/-- The bench keeps PasteLaw in each of the twelve phases. -/
theorem test_witness_paste_law : ∀ p ∈ phases, PasteLaw (bench p) := by
  unfold PasteLaw
  decide +kernel

/-- StepKeepsGateSchedule: the bench keeps GateLaw in each of the twelve phases. -/
theorem test_witness_gate_law : ∀ p ∈ phases, GateLaw (bench p) := by
  unfold GateLaw
  decide +kernel

/-- StepKeepsSplicesAndRecords: the bench keeps TrackingLaw in each of the twelve phases. -/
theorem test_witness_tracking_law : ∀ p ∈ phases, TrackingLaw (bench p) := by
  unfold TrackingLaw
  decide +kernel

/-- The bench keeps RecordLaw in each of the twelve phases. -/
theorem test_witness_record_law : ∀ p ∈ phases, RecordLaw (bench p) := by
  unfold RecordLaw
  decide +kernel

/-- StepKeepsBreakGroups: the bench keeps BreakLaw in each of the twelve phases. -/
theorem test_witness_break_law : ∀ p ∈ phases, BreakLaw (bench p) := by
  unfold BreakLaw
  decide +kernel

/-- The bench keeps QueueLaw. -/
theorem test_witness_queue_law (p : Phase) : QueueLaw (bench p) := by
  refine ⟨?_, ?_, ?_, ?_, ?_⟩
  · exact ⟨show 1 ≤ 8 by decide, show 8 ≤ 64 by decide⟩
  · exact show 0 ≤ 32 by decide
  · exact fun _ h => nomatch h
  · exact trivial
  · exact show 0 ≤ 8 by decide

/-! ### Witnesses: each clause of the statements -/

/-- A part without a due event: every next-period time and the next-sample time lie ahead. -/
def quiet : State :=
  let s := bench .running fun d => { d with io := { d.io with nextPeriod := 9000 } }
  { s with line := { s.line with nextSample := 15000, usClock := 0 } }

/-- The bench with INIT at 0. -/
def working (p : Phase) (f : Stand → Stand := id) : State :=
  let s := bench p f
  { s with host := { s.host with init := false } }

/-- The bench while the RESET pin is low. -/
def held : State := after (.deviceReset .pin) (bench .matching)

/-- EmptyQueueLetsTimeRun: an event is due, a reset lasts, nothing is due. -/
theorem test_witness_empty_queue :
    dueCommand (bench .matching) = some .speedSample ∧ (bench .matching).pending = [] ∧
      dueCommand held = none ∧ held.host.resetLow = true ∧ held.pending = [] ∧
      quiet.host.resetLow = false ∧ quiet.pending = [] ∧
      dueCommand { quiet with stands := mapStands (fun d => { d with io := { d.io with nextPeriod := 1 } }) quiet.stands } =
        none := by decide +kernel

/-- ResetGivesTheResetValues. -/
theorem test_witness_resets :
    (bench .matching).host.resetLow = false ∧ (0xFFFFFFFF : Word).getLsbD 0 = true ∧ held.host.resetLow = true ∧
      Instr.wellFormed .speedSample = true ∧ Instr.speedSample ≠ .deviceReset .pin := by decide +kernel

/-- InitialisationEndBringsTheTableUp, at each stage, and HostWriteStoresOneWord at the last word of the table area. -/
theorem test_witness_table_writes :
    State.reset.host.init = true ∧ State.reset.host.resetLow = false ∧ State.reset.host.initStage = 0 ∧
      (0x1FFC : BitVec 13).toNat % 4 = 0 ∧ (0x1FFF : BitVec 13).toNat % 4 ≠ 0 ∧ (working .idle).host.init = false := by
  decide +kernel

/-- The fifteen requests with their slots and kinds, and the code of the LINE slot's body. -/
def requests : List (Instr × Slot × Nat × Word) :=
  [(.lineSetup, .line, 1, 0), (.gateOverride, .line, 2, 0), (.freeze, .line, 2, 3), (.clearTracking, .line, 3, 0),
    (.declareRunning 7, .order 7, 0x10, 0), (.loadReel 7, .order 7, 0x11, 0), (.cancelReel 7, .order 7, 0x12, 0),
    (.standSetup 7, .order 7, 0x13, 0), (.spliceNow 7, .command 7, 0x20, 0), (.abort 7, .command 7, 0x21, 0),
    (.resume 7, .command 7, 0x22, 0), (.standReset 7, .command 7, 0x23, 0), (.jogIndex 7, .command 7, 0x24, 0),
    (.reviseTiming 7, .command 7, 0x25, 0), (.setPhaseLines 7, .command 7, 0x26, 0)]

/-- EveryRequestIsAnswered, for each of the fifteen requests. -/
theorem test_witness_requests : ∀ x ∈ requests,
    let s := post x.2.1 x.2.2.1 [x.2.2.2] (working .prepared)
    x.1.request = some (x.2.1, x.2.2.1) ∧ s.host.resetLow = false ∧ requestDue x.2.1 x.2.2.1 s = true ∧
      (x.1 = .freeze → s.gateCode = 3) ∧ (x.1 = .gateOverride → s.gateCode ≠ 3) := by decide +kernel

/-- KindAndStateOfASlotAreJudged, for the three kinds of slot. -/
theorem test_witness_kinds : ∀ slot ∈ [Slot.line, .order 0, .command 7],
    let s := post slot 0x27 [] (working .idle)
    s.host.resetLow = false ∧ s.attends (attentionBit slot) = true ∧ headerState (s.header slot) = 1 ∧
      kindPermitted slot (headerKind (s.header slot)) = false ∧ headerState ((working .idle).header slot) ≠ 1 := by
  decide +kernel

/-- BlocksAndImagesShowTheState: a rewrite of the line status block, one of a stand status block, and two intakes. -/
theorem test_witness_blocks :
    let s := working .running
    (after .cutEdge s).host.lineUpdates ≠ s.host.lineUpdates ∧ (after .cutEdge s).host.init = false ∧
      ((after (.spindleMark 0) s).stand 0).updateCount ≠ (s.stand 0).updateCount ∧
      requestDue (.order 0) 0x12 (post (.order 0) 0x12 [] s) = true ∧
      requestDue (.command 0) 0x24 (post (.command 0) 0x24 [] (s.setMem (s.mem.writeWord 0x240 2))) = true ∧
      (post (.command 0) 0x24 [] (s.setMem (s.mem.writeWord 0x240 2))).orderDone 0 = true := by decide +kernel

/-- InterruptLinesAndTopNotice: the lowest bit on ALERT, the lowest on NOTE with no ALERT, and neither. -/
theorem test_witness_interrupts :
    let h (n e : BitVec 24) : HostSide := { State.reset.host with notice := n, enable := e, level := 0x00BD00 }
    (h 0x100 0x100).alertBits.getLsbD 8 = true ∧ (∀ j, j < 8 → (h 0x100 0x100).alertBits.getLsbD j = false) ∧
      (h 0x800000 0xFFFFFF).noteBits.getLsbD 23 = true ∧
      (∀ j, j < 23 → (h 0x800000 0xFFFFFF).noteBits.getLsbD j = false) ∧ (h 0xFFFFFF 0).alertBits = 0 ∧
      (h 0xFFFFFF 0).noteBits = 0 := by decide +kernel

/-- QuadratureStepsTheLineCount and IllegalTransitionsAndTheirWindow, with the counts at their limits. -/
theorem test_witness_quadrature :
    let s := bench .armed
    (true != s.line.refA || false != s.line.refB) = true ∧ quadraturePlace true false = (quadraturePlace false false + 1) % 4 ∧
      quadraturePlace false true = (quadraturePlace false false + 3) % 4 ∧
      quadraturePlace true true = (quadraturePlace s.line.refA s.line.refB + 2) % 4 ∧ s.host.resetLow = false ∧
      s.line.illegalTotal ≤ 4294967295 ∧ s.line.windowCount ≤ 65535 ∧ s.line.encoderFault = false ∧
      (after (.quadratureTransition true true) { s with line := { s.line with windowCount := 15 } }).line.encoderFault =
        true ∧ { s.line with windowEndDue := true }.windowEndDue = true := by decide +kernel

/-- QuadratureStepsTheLineCount: at the boundary of each consequence of a step, and one count before it. The stall limit of
Cp 31,370 is 94,110. -/
theorem test_witness_line_consequences :
    let fwd (s : State) := after (.quadratureTransition true false) s
    let back (s : State) := after (.quadratureTransition false true) s
    let stall (r : Word) := ((fwd (bench .matching fun d => { d with spindle := { d.spindle with ref := some r } })).stand 0).spindle
    let nip (w : Word) : State := { bench .idle with arbiter := { (bench .idle).arbiter with lastNip := w, lastNipValid := true } }
    let zone (w : Word) : State := { bench .idle with tracker := { (bench .idle).tracker with entries := [⟨9, 2, w, w, 0, none⟩] } }
    let knife (n : Nat) := ((fwd (bench .cutting fun d => { d with setup := { d.setup with knifeDelay := n } })).stand 0).paste.knife
    (stall 5890).validity = .lost ∧ (stall 5890).ref = none ∧ (stall 5891).validity = .valid ∧
      (fwd (nip (100001 - 1073741824))).arbiter.lastNipValid = false ∧
      (fwd (nip (100000 - 1073741824))).arbiter.lastNipValid = true ∧
      (back (nip (99999 + 1073741825))).arbiter.lastNip = 99999 + 1073741824 ∧
      (back (nip (99999 + 1073741824))).arbiter.lastNip = 99999 + 1073741824 ∧
      (fwd (zone (100001 - 1073741824))).tracker.entries = [] ∧
      (fwd (zone (100002 - 1073741824))).tracker.entries.length = 1 ∧
      knife 1001 = .active ∧ knife 1002 = .wait := by decide +kernel

/-- SpeedSampleMeasuresTheLine, at the next-sample time. -/
theorem test_witness_speed_sample :
    (bench .matching).host.resetLow = false ∧
      atOrAfter (bench .matching).line.usClock (bench .matching).line.nextSample = true := by decide +kernel

/-- A stand of the bench with its reference, ramp step count, winddown target and tab deadline's period set. -/
def moving (p : Phase) (ref kr : Nat) (target : WinddownTarget) (pp : Nat) : State :=
  bench p fun d => { d with
    speed := { d.speed with ref := ref, kr := kr }
    seq := { d.seq with target := if p = .winddown then some target else none }
    tab := { d.tab with pp := some pp } }

/-- SpeedSampleMovesTheStands, the line's side: every phase, at V_min and one below. -/
theorem test_witness_moving_line : ∀ p ∈ phases,
    let s (n : Word) := { bench p with line := { (bench p).line with prevCount := n } }
    ClearanceLaw (s 99700) ∧ (s 99700).safeAsserted = false ∧ (after .speedSample (s 99700)).line.vLine = 300 ∧
      ClearanceLaw (s 99701) ∧ (after .speedSample (s 99701)).line.vLine = 299 := by
  unfold ClearanceLaw
  decide +kernel

/-- SpeedSampleMovesTheStands, the stand's side: both sides of the ramp's end, the tab deadline reached and not, both sides
of the winddown's end with each target. -/
theorem test_witness_moving_stand :
    let d (kr pp : Nat) := (moving .accelerating 0 kr .held pp).stand 0
    let e (r : Nat) (g : WinddownTarget) := (moving .winddown r 0 g 1).stand 0
    ClearanceLaw (moving .accelerating 0 1799 .held 125000) ∧ ClearanceLaw (moving .winddown 15 0 .idle 1) ∧
      10 * ((d 1798 1).speed.kr + 1) < (d 1798 1).setup.tAcc + (d 1798 1).setup.tSettle ∧
      (d 1799 1).setup.tAcc + (d 1799 1).setup.tSettle ≤ 10 * ((d 1799 1).speed.kr + 1) ∧
      reached 5000 (d 1799 125000).tab.deadlineOf = true ∧ reached 5000 (d 1799 125001).tab.deadlineOf = false ∧
      (e 16 .held).speed.wdStep = some 15 ∧ 15 < (e 16 .held).speed.ref ∧ (e 15 .held).speed.ref ≤ 15 ∧
      (e 15 .held).seq.target = some .held ∧ (e 15 .idle).seq.target = some .idle := by
  unfold ClearanceLaw
  decide +kernel

/-- CutEdgeIsJudged: V at 0, an edge one count short of half a cutoff, one at half a cutoff, and no reference. -/
theorem test_witness_cut_edge :
    let s := bench .idle
    let half := BitVec.ofNat 32 (s.line.params.cutoff / 2)
    s.line.cut.level = false ∧ s.host.resetLow = false ∧ 0 < s.line.v ∧ s.line.spuriousCuts ≤ 4294967295 ∧
      atOrAfter 100000 ((97111 : Word) + half) = false ∧ atOrAfter 100000 ((97110 : Word) + half) = true ∧
      State.reset.line.v ≤ 0 ∧ State.reset.line.boundaryRef = none := by decide +kernel

/-- SyntheticBoundaries: the cutoff's range, a line count at the threshold of the reference 96,000 and one before it, no
reference, run counts of 0, 8 and the last, and a LINE SETUP whose cutoff brings the threshold to 99,000. -/
theorem test_witness_synthetic :
    let s := bench .idle
    1 ≤ s.line.params.cutoff ∧ s.line.params.cutoff ≤ 20000 ∧ (examineThreshold s).line.boundaryRef = some 96000 ∧
      min (0 + 1) 65535 = 1 ∧ min (8 + 1) 65535 = 9 ∧ min (65535 + 1) 65535 = 65535 ∧
      (examineThreshold { s with line := { s.line with lineCount := 104670 } }).line.boundaryRef = some 101780 ∧
      (examineThreshold { s with line := { s.line with lineCount := 104669 } }).line.boundaryRef = some 96000 ∧
      { s.line with boundaryRef := none }.boundaryRef = none ∧
      (after .lineSetup (post .line 0x01 [1, 2000] s)).line.boundaryRef = some 98000 := by decide +kernel

/-- LineSetupIsJudgedAndMerged: refused, clamped, merged without a hand-over, and with a hand-over of G alone. -/
theorem test_witness_line_setup :
    let s (mask : Word) (body : List Word) := post .line 0x01 (mask :: body) (bench .idle)
    requestDue .line 0x01 (s 1 [999]) = true ∧ (s 1 [999]).lineRequest.cutoff = some 999 ∧
      (s 2 [0, 65]).lineRequest.gateDelay = some 65 ∧ (s 4 [0, 0, 50001]).lineRequest.preMargin = some 50001 ∧
      (s 0 []).lineRequest = ⟨none, none, none, none, none, none⟩ ∧
      (after .lineSetup (s 2 [0, 64])).line.params.gateDelay ≠ (s 2 [0, 64]).line.params.gateDelay ∧
      (after .lineSetup (s 2 [0, 64])).line.params.cutoff = (s 2 [0, 64]).line.params.cutoff ∧
      (s 2 [0, 64]).tracker.mode = .normal := by decide +kernel

/-- LevelChangesMoveTheFilterAlone: an input change that is no event, an asserted BREAK input, an asserted SAFE. -/
theorem test_witness_level_changes :
    let s := bench .running fun d => { d with io := { d.io with inputs := d.io.inputs.put (.brk 3) ⟨true, true, true, 0⟩ } }
    levelOnly s (.stand 0 .tabB) = true ∧ (s.input (.stand 0 (.brk 3))).level = true ∧ s.host.resetLow = false ∧
      { s with safe := ⟨false, false, false, 0⟩ }.safe.level = false := by decide +kernel

/-- WebBreakByState, SafeAssertionForcesEveryStand, AbortIsJudged and StandResetReturnsToIdle, in every phase. -/
theorem test_witness_by_phase : ∀ p ∈ phases,
    ClearanceLaw (bench p) ∧ (bench p).host.resetLow = false ∧ webBreakDue (bench p) 0 1 = true ∧
      (bench p).safe.level = true ∧ (bench p).phase 0 = p ∧
      requestDue (.command 0) 0x23 (post (.command 0) 0x23 [] (bench p)) = true ∧
      requestDue (.command 0) 0x21 (post (.command 0) 0x21 [] (bench p)) = true ∧
      requestDue (.command 0) 0x20 (post (.command 0) 0x20 [] (bench p)) = true ∧
      requestDue (.command 0) 0x22 (post (.command 0) 0x22 [] (bench p)) = true ∧
      requestDue (.order 0) 0x11 (post (.order 0) 0x11 [] (bench p)) = true ∧
      requestDue (.order 0) 0x12 (post (.order 0) 0x12 [] (bench p)) = true := by
  unfold ClearanceLaw
  decide +kernel

/-- DriveRefPeriods: a period start at its time, and the ends of the active part at 0 µs and at 3,999 µs. -/
theorem test_witness_drive_ref :
    let d (n : Nat) (w : Word) := (bench .matching fun d => { d with
      io := { d.io with duty := n, driveOut := true, nextPeriod := w } }).stand 0
    atOrAfter 5000 (d 0 5000).io.nextPeriod = true ∧ (d 0 5000).io.driveOut = true ∧ (d 3999 5001).io.duty < 4000 ∧
      atOrAfter 5000 ((d 3999 5001).io.nextPeriod - 4000 + BitVec.ofNat 32 (d 3999 5001).io.duty) = true ∧
      atOrAfter 5000 ((d 0 9000).io.nextPeriod - 4000 + BitVec.ofNat 32 (d 0 9000).io.duty) = true := by decide +kernel

/-- A stand that meets the start conditions where `l` is large enough: an estimate just over the splice diameter. -/
def starting (p : Phase) (estimate : Nat) : State :=
  bench p fun d => { d with spindle := { d.spindle with estimate := estimate }, io := { d.io with jogDeadline := some 5000 } }

/-- JogHoldEndsAtItsDeadline, AutomaticStart, LoadAndCancelReelAreJudged and SpliceNowAndResumeAreJudged: the start
conditions met and not met. At V_line 400 the lead is 720,000 counts. -/
theorem test_witness_start_conditions :
    let d (n : Nat) := (starting .prepared n).setStand 0 { (starting .prepared n).stand 0 with
      io := { ((starting .prepared n).stand 0).io with jogDeadline := none } }
    ((starting .prepared 1600).stand 0).io.jogDeadline = some 5000 ∧ atOrAfter 5000 5000 = true ∧
      ((d 1600).stand 0).spindle.validity = .valid ∧ (d 1600).line.params.vMin ≤ (d 1600).line.vLine ∧
      (d 1600).line.encoderFault = false ∧ (d 1600).safeAsserted = false ∧
      ((d 1600).stand 0).io.jogDeadline = none ∧ ((d 1600).stand 0).running = some ⟨reel, none⟩ ∧
      remainingLength 1600 reel.caliper reel.splice ≤ roundDiv (400 * (15000 + 3000)) 10 ∧
      ¬ remainingLength 1900 reel.caliper reel.splice ≤ roundDiv (400 * (15000 + 3000)) 10 ∧
      (starting .prepared 1600).phase 0 = .prepared := by decide +kernel

/-- PhaseLineAndJogRequests: AUTO and MANUAL, the values 7 and 8, and a jog admitted and not. -/
theorem test_witness_phase_lines :
    let s (v : Word) := post (.command 0) 0x26 [v] (bench .faulted)
    requestDue (.command 0) 0x26 (s 7) = true ∧ ((s 7).slotWord (.command 0) 1).toNat = 7 ∧
      ((s 8).slotWord (.command 0) 1).toNat = 8 ∧ ((s 8).stand 0).setup.phaseMode = .auto ∧
      ((bench .faulted fun d => { d with setup := { d.setup with phaseMode := .manual } }).stand 0).setup.phaseMode = .manual ∧
      requestDue (.command 0) 0x24 (post (.command 0) 0x24 [] (bench .winddown)) = true := by decide +kernel

/-- DeclareRunningIsJudged: a body whose geometry is at the lower ends of R35, one below, each with its request due. -/
theorem test_witness_declare_running :
    let s (core : Word) := post (.order 0) 0x10 [1, 9, 640, core, 20, 540, 500] (bench .idle)
    requestDue (.order 0) 0x10 (s 500) = true ∧ (s 500).reelRequest 0 = ⟨⟨9, 640, 500, 20, 540⟩, some 500⟩ ∧
      ((s 500).reelRequest 0).inRange ∧ ¬ ((s 499).reelRequest 0).inRange ∧ (s 500).phase 0 = .idle := by
  unfold RunningReel.inRange Reel.inRange
  decide +kernel

/-- StandSetupIsJudgedAndMerged: out of range, an edge order that fails, and a merge of the filter rate and an enable. -/
theorem test_witness_stand_setup :
    let s (mask : Word) (n : Nat) (v : Word) := post (.order 0) 0x13 ([mask] ++ List.replicate n 0 ++ [v]) (bench .held)
    requestDue (.order 0) 0x13 (s 4 2 4096) = true ∧ ((s 4 2 4096).setupRequest 0).inRange = false ∧
      ((s 4 2 4095).setupRequest 0).inRange = true ∧ ((s 0x2000 13 2).setupRequest 0).inRange = true ∧
      ((s 0x2000 13 2).setupRequest 0).edgeOrderFails ((bench .held).stand 0).setup = true ∧
      (((s 0x1000 12 0).setupRequest 0).merge ((bench .held).stand 0).setup).rate ≠ ((bench .held).stand 0).setup.rate ∧
      (((s 0x40000 18 0).setupRequest 0).merge ((bench .held).stand 0).setup).breakEnable ≠
        ((bench .held).stand 0).setup.breakEnable ∧
      ((s 4 2 4096).setupRequest 0).theta = some 4096 ∧ ((s 0x400 10 21).setupRequest 0).offset = some 21 ∧
      ((s 0x400 10 0xFFFFFFEB).setupRequest 0).offset = some (-21) ∧
      ((s 0x2000 13 2).setupRequest 0).edgeSpindle = some 2 := by decide +kernel

/-- R43: a code above the last of its field refuses the request, and R45: an offset of 21 is clamped to 20. -/
theorem test_stand_setup_ranges :
    let s (mask : Word) (n : Nat) (v : Word) := post (.order 0) 0x13 ([mask] ++ List.replicate n 0 ++ [v]) (bench .held)
    resultOf (.order 0) (after (.standSetup 0) (s 0x1000 12 2)) = 4 ∧
      resultOf (.order 0) (after (.standSetup 0) (s 0x400 10 21)) = 2 ∧
      ((after (.standSetup 0) (s 0x400 10 21)).stand 0).setup.offset = 20 := by decide +kernel

/-- SpindleMarkIsMeasured: a mark in and outside the measuring states, no reference, a web that has not moved on, and C
of each class at its limits. -/
theorem test_witness_spindle_mark :
    spindleMarkDue (bench .running) 0 = true ∧ spindleMarkDue (bench .cutting) 0 = true ∧
      Phase.isMeasuring .running = true ∧ Phase.isMeasuring .cutting = false ∧ SpindleSide.atReset.ref = none ∧
      atOrAfter 100000 ((100000 : Word) + 1) = false ∧ atOrAfter 100000 ((99999 : Word) + 1) = true ∧
      ((bench .running).stand 0).spindle.cp = some 31370 ∧ ((bench .running).stand 0).spindle.history ≠ [] ∧
      (9 * 31370 ≤ 10 * 28233 ∧ 10 * 28233 ≤ 11 * 31370) ∧
      (¬ 9 * 31370 ≤ 10 * 28232 ∧ ¬ 7 * 31370 ≤ 4 * 28232) ∧
      (¬ 10 * 54898 ≤ 11 * 31370 ∧ 7 * 31370 ≤ 4 * 54898 ∧ 4 * 54898 ≤ 9 * 31370) := by decide +kernel

/-- SpindleMarkIsMeasured: stored revolutions of 5,000 counts start a PREPARED stand, and of 2,450 counts, which is the
runout diameter 780, raise RUNOUT. -/
theorem test_witness_spindle_effects :
    let s (p : Phase) (c : Nat) := bench p fun d => { d with spindle := { d.spindle with
      ref := some (100000 - BitVec.ofNat 32 c), cp := some c, history := [c, c, c] } }
    (after (.spindleMark 0) (s .prepared 5000)).phase 0 = .accelerating ∧
      ((after (.spindleMark 0) (s .running 2450)).stand 0).spindle.runoutFlag = true ∧
      (after (.spindleMark 0) (s .running 2450)).host.notice.getLsbD 13 = true ∧
      ((after (.spindleMark 0) (s .running 2455)).stand 0).spindle.runoutFlag = false := by decide +kernel

/-- TabMarkOutsideMatching, TabMarkInMatching and ArmingMarkCommitsTheFirePoint: a mark in every phase, the one of
PASTING and CUTTING with see-through on; the bench's period is 250,000 and its Pp too. -/
theorem test_witness_tab_marks : ∀ p ∈ phases,
    let s := bench p fun d => { d with setup := { d.setup with seeThrough := true } }
    tabMarkDue s 0 = true ∧ s.host.resetLow = false ∧ (s.stand 0).tab.last = some ⟨4294722296, 68800⟩ ∧
      (s.stand 0).tab.pp = some 250000 ∧ ((5000 : Word) - 4294722296).toNat = 250000 ∧ ClearanceLaw s ∧
      (p = .matching ∨ p = .armed → (s.stand 0).ready = some reel) := by
  unfold ClearanceLaw
  decide +kernel

/-- TabMarkInMatching: periods accepted, halved and rejected against Pp, a last mark at the present line count (C_tab 0),
and match counts before 3, at 3 and falling. -/
theorem test_witness_tab_periods :
    (9 * 277777 ≤ 10 * 250000 ∧ 10 * 250000 ≤ 11 * 277777) ∧ ¬ 9 * 277778 ≤ 10 * 250000 ∧
      (7 * 125000 ≤ 4 * 250000 ∧ 4 * 250000 ≤ 9 * 125000 ∧ ¬ 10 * 250000 ≤ 11 * 125000) ∧
      (¬ 10 * 250000 ≤ 11 * 227272 ∧ ¬ 7 * 227272 ≤ 4 * 250000) ∧ atOrAfter 100000 100000 = true ∧
      ((100000 : Word) - 100000).toNat = 0 ∧ min (2 + 1) 3 = 3 := by decide

/-- ArmingMarkCommitsTheFirePoint: k = 0, k = 1 and TIMING_RANGE at their limits, with t_nip of θ 4,095 and of θ 0. -/
theorem test_witness_fire_points :
    4095 * 250000 / 4096 = 249938 ∧ firePoint 4095 249938 250000 = some ⟨0, 0, 249938⟩ ∧
      firePoint 4095 249939 250000 = some ⟨1, 249999, 499938⟩ ∧ firePoint 0 250000 250000 = some ⟨1, 0, 250000⟩ ∧
      firePoint 0 250001 250000 = none ∧ firePoint 0 0 250000 = some ⟨0, 0, 0⟩ := by decide

/-- DeadlinesEndTheirStates and PasteTimersRun: every timer of the bench stands at its µs clock. -/
theorem test_witness_timers :
    let knife (d : Stand) : Stand := { d with paste := { d.paste with knife := .active, knifeEnd := some 5000 } }
    atOrAfter 5000 5000 = true ∧ ((bench .matching).stand 0).seq.matchDeadline = some 5000 ∧
      ((bench .armed).stand 0).tab.deadline = some 5000 ∧ ((bench .indexing).stand 0).seq.indexDeadline = some 5000 ∧
      ((bench .pasting).stand 0).seq.attempt.fireTime = some 5000 ∧ ((bench .cutting).stand 0).paste.dwellEnd = some 5000 ∧
      ((bench .cutting).stand 0).paste.knife = .wait ∧ ((bench .cutting).stand 0).seq.attempt.knifeLate = some 5000 ∧
      ((bench .cutting knife).stand 0).paste.knifeEnd = some 5000 ∧
      ({ (benchStand .pasting).paste with oneShot := .delay } : PasteTiming).oneShot = .delay := by decide +kernel

/-- DeadlinesEndTheirStates: the index deadline closes the OPEN record, which is placed, or waits with a full table. -/
theorem test_witness_index_close :
    let q : PendingRecord := { waiting with phase := .open }
    let s := { bench .indexing fun d => { d with records := { d.records with pending := some q } } with
      records := { (bench .indexing).records with order := [0] } }
    let full := s.setMem (s.mem.writeWords (recordBase 0) (List.replicate 512 1))
    q.phase = .open ∧ (((after (.indexDeadline 0) s).stand 0).records.pending = none ∧
        entryState (after (.indexDeadline 0) s).mem 0 = 1) ∧
      ((after (.indexDeadline 0) full).stand 0).records.pending = some ⟨{ waiting.record with
        outcome := some .faultAfterNip, cause := some .indexTimeout }, .waiting⟩ := by decide +kernel

/-- IndexHomeMakesTheReadyReelRun: a mark in INDEXING with an OPEN record, and one elsewhere. -/
theorem test_witness_index_home :
    let q : PendingRecord := { waiting with phase := .open }
    let s := bench .indexing fun d => { d with records := { d.records with pending := some q } }
    homeMarkDue s 0 = true ∧ s.phase 0 = .indexing ∧ (s.stand 0).ready = some reel ∧ q.phase = .open ∧
      homeMarkDue (bench .matching) 0 = true := by decide +kernel

/-- Sixteen tracking entries of stand 7 with serials from 100 on. -/
def fullList : List TrackEntry :=
  (List.range 16).map fun n => ⟨100 + n, 7, BitVec.ofNat 32 (200000 + n), BitVec.ofNat 32 (210000 + n), 0, none⟩

/-- NipMakesTheSplice: knife delays of 0 and of the most, an empty and a taken record slot, a full and an empty list. -/
theorem test_witness_nip :
    let s (n : Nat) := bench .pasting fun d => { d with
      setup := { d.setup with knifeDelay := n }, records := { d.records with pending := some waiting } }
    ClearanceLaw (s 0) ∧ ClearanceLaw (s 200000) ∧ (s 0).phase 0 = .pasting ∧ ((s 0).stand 0).paste.oneShot = .active ∧
      ((s 0).stand 0).seq.attempt.nipTime = some 5000 ∧ ((bench .pasting).stand 0).records.pending = none ∧
      waiting.phase = .waiting ∧ waiting.record.serial ≠ (s 0).records.nextSerial ∧
      (s 0).tracker.entries.length < 16 ∧ fullList.length = 16 ∧
      (∀ x ∈ fullList, x.serial ≠ (s 0).records.nextSerial) ∧
      ((bench .pasting).stand 0).running = some ⟨reel, none⟩ ∧ ((bench .pasting).stand 0).seq.attempt.k = some 1 := by
  unfold ClearanceLaw
  decide +kernel

/-- NipMakesTheSplice: with a full list the overflow is counted, noticed and marked on the record opened (R144). -/
theorem test_witness_nip_overflow :
    let s : State := { bench .pasting with tracker := { (bench .pasting).tracker with entries := fullList } }
    let t := after (.nip 0) s
    t.tracker.overflows = 1 ∧ t.host.notice.getLsbD 5 = true ∧ t.tracker.entries = fullList ∧
      ((t.stand 0).records.pending.map fun q => q.record.trackOverflow) = some true := by decide +kernel

/-- ReviseTimingIsJudgedAndMerged: θ at 4,095 and 4,096, and a knife width below its range. -/
theorem test_witness_revise_timing :
    let s (mask theta width : Word) := post (.command 0) 0x25 [mask, theta, 0, 0, 0, width] (bench .matching)
    requestDue (.command 0) 0x25 (s 1 4095 0) = true ∧ ((s 1 4095 0).timingRequest 0).theta = some 4095 ∧
      ((s 1 4096 0).timingRequest 0).theta = some 4096 ∧ ((s 16 0 999).timingRequest 0).knifeWidth = some 999 := by
  decide +kernel

/-- ArbiterGrantsTheMostUrgent: two requesters while the clearance is free, and while stand 0 holds it. -/
theorem test_witness_arbiter :
    let s := bench .idle
    let a : Arbiter := { s.arbiter with requests := #v[false, true, false, false, false, false, false, true] }
    a.holder = none ∧ a.requested 1 = true ∧ a.requested 7 = true ∧ a.lastNipValid = false ∧
      (bench .armed).arbiter.holder = some 0 ∧
      atOrAfter 200000 ((0 : Word) + BitVec.ofNat 32 s.line.params.clearance) = true ∧
      atOrAfter 199999 ((0 : Word) + BitVec.ofNat 32 s.line.params.clearance) = false := by decide +kernel

/-- GateRequestsAreJudged and ClearTrackingEmptiesListAndQueue: each code, and one entry without a record. -/
theorem test_witness_gate :
    let s (kind : Nat) (n : Nat) := post .line kind [BitVec.ofNat 32 n] (bench .idle)
    (∀ n ∈ [0, 1, 2, 3, 4],
      requestDue .line 0x02 (s 2 n) = true ∧ (s 2 n).host.resetLow = false ∧ (s 2 n).gateCode = n) ∧
      requestDue .line 0x03 (s 3 0) = true ∧ (s 3 0).tracker.mode = .normal ∧ (s 3 0).tracker.lastStatus ≠ .fault ∧
      filledWith (s 3 0).mem 9 = none ∧ ((s 3 0).stand 2).records.pending = none := by decide +kernel

/-- ClearTrackingEmptiesListAndQueue: a frozen gate, an entry whose record is pending, one whose record stands FILLED, and
both retired in one list. -/
theorem test_witness_clear_tracking :
    let m := (benchWaiting.mem.writeWord (recordBase 31) 1).writeWord (recordBase 31 + 4) 9
    let s := post .line 0x03 [] { benchWaiting with
      mem := m, tracker := { benchWaiting.tracker with
        mode := .frozen, frozenLevel := some .pass, entries := [⟨7, 5, 0, 1, 0, none⟩, ⟨9, 2, 0, 1, 0, none⟩] } }
    let t := after .clearTracking s
    requestDue .line 0x03 s = true ∧ s.tracker.lastStatus ≠ .fault ∧ t.tracker.output = .pass ∧
      filledWith s.mem 9 = some 31 ∧ entryState t.mem 31 = 3 ∧
      (t.stand 5).records.pending = some { waiting with record := { waiting.record with delivery := some .lost } } := by
  decide +kernel

/-- A full run queue of 32 runs. -/
def fullQueue : List Run := (List.range 32).map fun n => ⟨if n % 2 = 0 then .divert else .pass, if n < 8 then 2 else 1⟩

/-- QueueKeepsItsCopies: the full queue of the example of section 9.4, undegraded and degraded appends, sum 40 and G 40. -/
theorem test_witness_queue :
    fullQueue.length = 32 ∧ (∀ r ∈ fullQueue, 1 ≤ r.count ∧ r.count ≤ 127) ∧ queueSum fullQueue = 40 ∧
      (appendFate .divert fullQueue).2 = true ∧ (appendFate .pass fullQueue).2 = false ∧
      (∀ x ∈ fullQueue.zip fullQueue.tail, x.1.fate ≠ x.2.fate) := by decide +kernel

/-- QueueKeepsItsCopies: a queue that alternates. -/
theorem test_witness_queue_alternates : fatesAlternate [⟨.divert, 2⟩, ⟨.pass, 127⟩] := ⟨by decide, trivial⟩

/-- InsertionKeepsTheListInOrder: two zone starts 2^31 − 1 counts apart, seen from the first. -/
theorem test_witness_insertion :
    let x (n : Word) : TrackEntry := ⟨1, 0, n, n + 10, 0, none⟩
    (∀ y ∈ [x 5, x 5, x 2147483652], (y.zoneStart - 5).toNat < 2147483648) ∧ zonesOrdered 5 [x 5, x 2147483652] := by
  unfold zonesOrdered
  decide +kernel

/-- BoundaryCountsAndRetires: an entry whose zone ends at the boundary, one that overlaps, and one that begins with the
next copy. -/
theorem test_witness_boundary :
    atOrAfter (1000 : Word) (1000 : Word) = true ∧ atOrAfter (6999 : Word) ((1000 : Word) + 6000) = false ∧
      atOrAfter (1001 : Word) ((1000 : Word) + 1) = true ∧ atOrAfter (7000 : Word) ((1000 : Word) + 6000) = true := by decide

/-- BoundaryCountsAndRetires: a CUT edge that makes a real boundary pops PASS from a primed queue of G copies, and pops
nothing from one a copy short of it. -/
theorem test_witness_gate_output :
    let s (n : Nat) : State := { bench .idle with tracker := { (bench .idle).tracker with queue := [⟨.pass, n⟩] } }
    (s 8).line.cut.level = false ∧ 0 < (s 8).line.v ∧ atOrAfter (s 8).line.lineCount ((96000 : Word) + BitVec.ofNat 32 2890) = true ∧
      (after .cutEdge (s 8)).tracker.output = .pass ∧ (after .cutEdge (s 7)).tracker.output = .divert := by decide +kernel

/-- RecordsReturnedPlacesTheWaiting: an OPEN record that is older than the WAITING one. -/
theorem test_witness_open_before_waiting :
    let q : PendingRecord := { waiting with phase := .open }
    let s := { benchWaiting.setStand 0 { benchWaiting.stand 0 with
      records := { (benchWaiting.stand 0).records with pending := some q } } with
      records := { benchWaiting.records with order := [0, 5] } }
    RecordLaw s ∧ s.waitingRecord 0 = none ∧ s.waitingRecord 5 = some waiting.record := by
  unfold RecordLaw
  decide +kernel

/-- AbortedRecordIsKeptOrDropped and RecordsReturnedPlacesTheWaiting: a slot that is taken, an empty one, and a WAITING
record that is the oldest, with a FREE entry. -/
theorem test_witness_records :
    RecordLaw benchWaiting ∧ benchWaiting.attends 17 = true ∧ benchWaiting.host.resetLow = false ∧
      benchWaiting.records.order = [5] ∧ benchWaiting.waitingRecord 5 = some waiting.record ∧
      lowestFree benchWaiting.mem = some 0 ∧ (benchWaiting.stand 5).records.pending.isSome = true ∧
      (benchWaiting.stand 0).records.pending = none ∧ (benchWaiting.stand 5).records.dropped < 4294967295 := by
  unfold RecordLaw
  decide +kernel

/-- RetirementFindsItsRecord: the record in the slot, a FILLED entry with the serial, and neither. -/
theorem test_witness_retirement :
    let m := (benchWaiting.mem.writeWord (recordBase 31) 1).writeWord (recordBase 31 + 4) 9
    waiting.record.serial = 7 ∧ filledWith m 9 = some 31 ∧ filledWith m 8 = none := by decide +kernel

/-- R173, R174, section 11.6: an entry whose word 0 the host has filled with ones but for its state keeps its listed
fields, and the bits that the layout does not list read 0. -/
theorem test_retired_word :
    let m := (benchWaiting.mem.writeWord (recordBase 31) 0xFFFFFF01).writeWord (recordBase 31 + 4) 9
    (entryRetired m 31 .lost).readWord (recordBase 31) = 0x03FF3703 ∧
    (entryRetired m 31 (.delivered 2 none)).readWord (recordBase 31) = 0x07FF3702 ∧
    (entryRetired m 31 (.delivered 2 (some (5, 6)))).readWord (recordBase 31) = 0x0FFF3702 := by decide +kernel

/-- The laws that every step keeps, and PartWritesItsOwnAreas: a step of the bench answers a next state in each of the twelve phases. -/
theorem test_witness_step :
    ∀ p ∈ phases, (match step (bench p) with | .next _ => true | .fault _ | .refused _ => false) = true := by
  decide +kernel

end Sys2Proof.Tests
end

section
/-!
PROOFS, chapter 1: frames of the stands' events. Which blocks an abort, a grant, a speed-sample step or a retirement
leaves alone, and which notices it does not raise.
-/
namespace Sys2Proof.Machine

/-! ### Notices -/

/-- A raised notice is set, and every other notice is as it was (R185). -/
theorem raise_notice_getLsbD (n : Notice) (s : State) {k : Nat} (hk : k < 24) :
    (raise n s).host.notice.getLsbD k = (s.host.notice.getLsbD k || decide (noticeBit n = k)) := by
  rw [raise_host_notice, BitVec.getLsbD_or, BitVec.getLsbD_twoPow]
  by_cases h : noticeBit n = k <;> simp [h, hk]

/-- The notices 7 to 15, which no work on records, no boundary and no attempt raises, are as they were: CUT_LOST to
STAND_FAULT (R185). -/
def QuietNotices (s t : State) : Prop :=
  ∀ k, 7 ≤ k → k < 16 → t.host.notice.getLsbD k = s.host.notice.getLsbD k

theorem QuietNotices.of_host {s t : State} (h : t.host.notice = s.host.notice) : QuietNotices s t :=
  fun _ _ _ => by rw [h]

theorem QuietNotices.trans {s t u : State} (h : QuietNotices s t) (k : QuietNotices t u) : QuietNotices s u :=
  fun n h7 h16 => (k n h7 h16).trans (h n h7 h16)

theorem raise_quiet {n : Notice} (h : noticeBit n < 7 ∨ 16 ≤ noticeBit n) (s : State) : QuietNotices s (raise n s) := by
  intro k h7 h16
  have hne : noticeBit n ≠ k := by omega
  simp [raise_notice_getLsbD n s (show k < 24 by omega), hne]

theorem recordEvent_quiet (i : StandNo) (s : State) : QuietNotices s (recordEvent i s) :=
  (raise_quiet (n := .standNews i) (.inr (Nat.le_add_right 16 _)) s).trans (.of_host (by simp [recordEvent]))

theorem placeRecord_quiet (i : StandNo) (r : SpliceRecord) (e : Nat) (s : State) :
    QuietNotices s (placeRecord i r e s) := by
  refine (raise_quiet (n := placementNotice r) (.inl ?_) s).trans (recordEvent_quiet i (raise (placementNotice r) _))
  unfold placementNotice
  split <;> decide

theorem placeAll_quiet (is : List StandNo) (s : State) : QuietNotices s (placeAll is s) := by
  induction is generalizing s with
  | nil => exact .of_host rfl
  | cons i rest ih =>
    unfold placeAll
    split
    · exact ih s
    · split
      · exact .of_host rfl
      · exact (placeRecord_quiet i _ _ s).trans (ih _)

theorem placementPass_quiet (i : StandNo) (s : State) : QuietNotices s (placementPass (some i) s) := by
  refine (placeAll_quiet s.records.order s).trans ?_
  unfold placementPass
  dsimp only
  split
  · exact raise_quiet (.inl (by decide)) _
  · exact .of_host rfl

theorem createAborted_quiet (i : StandNo) (cause : AbortCause) (s : State) :
    QuietNotices s (createAborted i cause s) := by
  unfold createAborted
  dsimp only
  split
  · exact (recordEvent_quiet i (fillPending i _ (takeSerial s))).trans (placementPass_quiet i _)
  · exact recordEvent_quiet i (dropRecord i (takeSerial s))

theorem applyRetirement_quiet (serial : Nat) (i : StandNo) (result : Retirement) (s : State) :
    QuietNotices s (applyRetirement serial i result s) := by
  unfold applyRetirement
  dsimp only
  split
  · split
    · exact recordEvent_quiet i (s.modStand i _)
    · split
      · exact recordEvent_quiet i (s.setMem _)
      · exact recordEvent_quiet i (s.modStand i _)
  · split
    · exact recordEvent_quiet i (s.setMem _)
    · exact recordEvent_quiet i (s.modStand i _)

theorem retireLost_quiet (es : List TrackEntry) (s : State) : QuietNotices s (retireLost es s) := by
  unfold retireLost
  induction es generalizing s with
  | nil => exact .of_host rfl
  | cons e rest ih => exact (applyRetirement_quiet e.serial e.stand .lost s).trans (ih _)

theorem retireDelivered_quiet (es : List TrackEntry) (s : State) : QuietNotices s (retireDelivered es s) := by
  unfold retireDelivered
  induction es generalizing s with
  | nil => exact .of_host rfl
  | cons e rest ih =>
    exact ((applyRetirement_quiet e.serial e.stand _ s).trans (raise_quiet (.inl (by decide)) _)).trans (ih _)

/-! ### The line-wide record unit -/

/-- A retirement leaves the next serial and the creation order (R173, R174). -/
@[simp] theorem applyRetirement_records (serial : Nat) (i : StandNo) (result : Retirement) (s : State) :
    (applyRetirement serial i result s).records = s.records := by
  unfold applyRetirement
  dsimp only
  split
  · split
    · simp
    · split <;> simp
  · split <;> simp

@[simp] theorem retireLost_records (es : List TrackEntry) (s : State) : (retireLost es s).records = s.records := by
  unfold retireLost
  induction es generalizing s with
  | nil => rfl
  | cons e rest ih => rw [List.foldl_cons, ih, applyRetirement_records]

@[simp] theorem retireDelivered_records (es : List TrackEntry) (s : State) :
    (retireDelivered es s).records = s.records := by
  unfold retireDelivered
  induction es generalizing s with
  | nil => rfl
  | cons e rest ih => rw [List.foldl_cons, ih, raise_records, applyRetirement_records]

/-! ### What no event of the stands reaches -/

/-- What every event of the stands, the arbiter, the tracker and the record unit leaves: the line reference, the safety
input, the sample instants, the queue of commands, the table interface but for NOTICE, and the bytes outside the record
table. -/
structure StandEventFrame (s t : State) : Prop where
  line    : t.line = s.line
  safe    : t.safe = s.safe
  phases  : t.phases = s.phases
  free    : t.free = s.free
  pending : t.pending = s.pending
  host    : t.host = { s.host with notice := t.host.notice }
  read    : ∀ x, ¬ (0x0B40 ≤ x ∧ x < 0x1340) → t.mem.read x = s.mem.read x

theorem StandEventFrame.refl (s : State) : StandEventFrame s s :=
  ⟨rfl, rfl, rfl, rfl, rfl, rfl, fun _ _ => rfl⟩

theorem StandEventFrame.trans {s t u : State} (h : StandEventFrame s t) (k : StandEventFrame t u) :
    StandEventFrame s u where
  line := k.line.trans h.line
  safe := k.safe.trans h.safe
  phases := k.phases.trans h.phases
  free := k.free.trans h.free
  pending := k.pending.trans h.pending
  host := by rw [k.host, h.host]
  read x hx := (k.read x hx).trans (h.read x hx)

theorem StandEventFrame.lineUpdates {s t : State} (h : StandEventFrame s t) :
    t.host.lineUpdates = s.host.lineUpdates := by rw [h.host]

theorem StandEventFrame.init {s t : State} (h : StandEventFrame s t) : t.host.init = s.host.init := by rw [h.host]

theorem RecordFrame.standEvent {s t : State} (h : RecordFrame s t) : StandEventFrame s t :=
  ⟨h.line, h.safe, h.phases, h.free, h.pending, h.host, h.read⟩

theorem StandEventFrame.modStand (i : StandNo) (f : Stand → Stand) (s : State) : StandEventFrame s (s.modStand i f) :=
  ⟨rfl, rfl, rfl, rfl, rfl, rfl, fun _ _ => rfl⟩

theorem StandEventFrame.modArbiter (f : Arbiter → Arbiter) (s : State) : StandEventFrame s (s.modArbiter f) :=
  ⟨rfl, rfl, rfl, rfl, rfl, rfl, fun _ _ => rfl⟩

theorem StandEventFrame.modTracker (f : Tracker → Tracker) (s : State) : StandEventFrame s (s.modTracker f) :=
  ⟨rfl, rfl, rfl, rfl, rfl, rfl, fun _ _ => rfl⟩

theorem StandEventFrame.enter (i : StandNo) (p : Phase) (s : State) : StandEventFrame s (enter i p s) :=
  (StandEventFrame.modStand i _ s).trans (recordEvent_frame i _).standEvent

/-! ### What no attempt reaches -/

/-- The values of a stand that the states of an attempt leave: its setup, its staged set, the spindle side, the ready
reel, the inputs and the duty register. -/
structure AttemptKeeps (d e : Stand) : Prop where
  setup   : e.setup = d.setup
  staged  : e.staged = d.staged
  spindle : e.spindle = d.spindle
  ready   : e.ready = d.ready
  inputs  : e.io.inputs = d.io.inputs
  duty    : e.io.duty = d.io.duty

theorem AttemptKeeps.refl (d : Stand) : AttemptKeeps d d := ⟨rfl, rfl, rfl, rfl, rfl, rfl⟩

theorem AttemptKeeps.trans {d e f : Stand} (h : AttemptKeeps d e) (k : AttemptKeeps e f) : AttemptKeeps d f :=
  ⟨k.setup.trans h.setup, k.staged.trans h.staged, k.spindle.trans h.spindle, k.ready.trans h.ready,
    k.inputs.trans h.inputs, k.duty.trans h.duty⟩

/-- What the steps and the aborts of attempts leave, beside `StandEventFrame`: the tracker, the last nip, the notices 7
to 15 and, of every stand, what `AttemptKeeps` lists. -/
structure AttemptFrame (s t : State) : Prop extends StandEventFrame s t where
  tracker      : t.tracker = s.tracker
  lastNip      : t.arbiter.lastNip = s.arbiter.lastNip
  lastNipValid : t.arbiter.lastNipValid = s.arbiter.lastNipValid
  notices      : QuietNotices s t
  stand        : ∀ j, AttemptKeeps (s.stand j) (t.stand j)

theorem AttemptFrame.refl (s : State) : AttemptFrame s s :=
  ⟨.refl s, rfl, rfl, rfl, .of_host rfl, fun _ => .refl _⟩

theorem AttemptFrame.trans {s t u : State} (h : AttemptFrame s t) (k : AttemptFrame t u) : AttemptFrame s u :=
  ⟨h.toStandEventFrame.trans k.toStandEventFrame, k.tracker.trans h.tracker, k.lastNip.trans h.lastNip,
    k.lastNipValid.trans h.lastNipValid, h.notices.trans k.notices, fun j => (h.stand j).trans (k.stand j)⟩

/-- A change of one stand that leaves what an attempt leaves. -/
theorem AttemptFrame.modStand (i : StandNo) {f : Stand → Stand} (hf : ∀ d, AttemptKeeps d (f d)) (s : State) :
    AttemptFrame s (s.modStand i f) where
  toStandEventFrame := .modStand i f s
  tracker := rfl
  lastNip := rfl
  lastNipValid := rfl
  notices := .of_host rfl
  stand j := by
    rw [State.modStand_stand]
    split
    · next h => exact h ▸ hf _
    · exact .refl _

/-- A change of the arbiter that leaves the last nip. -/
theorem AttemptFrame.modArbiter {f : Arbiter → Arbiter} (s : State) (hn : (f s.arbiter).lastNip = s.arbiter.lastNip)
    (hv : (f s.arbiter).lastNipValid = s.arbiter.lastNipValid) : AttemptFrame s (s.modArbiter f) :=
  ⟨.modArbiter f s, rfl, hn, hv, .of_host rfl, fun _ => .refl _⟩

theorem RecordFrame.attempt {s t : State} (h : RecordFrame s t) (hn : QuietNotices s t) : AttemptFrame s t where
  toStandEventFrame := h.standEvent
  tracker := h.tracker
  lastNip := by rw [h.arbiter]
  lastNipValid := by rw [h.arbiter]
  notices := hn
  stand j := by
    rw [h.stand j]
    exact ⟨rfl, rfl, rfl, rfl, rfl, rfl⟩

/-- A change of state leaves these too, but for an entry to FAULTED, which forces the duty register. -/
theorem AttemptFrame.enter (i : StandNo) {p : Phase} (hp : p ≠ .faulted) (s : State) : AttemptFrame s (enter i p s) := by
  refine (AttemptFrame.modStand i (fun d => ?_) s).trans ((recordEvent_frame i _).attempt (recordEvent_quiet i _))
  cases p
  case faulted => exact absurd rfl hp
  all_goals exact ⟨rfl, rfl, rfl, rfl, rfl, rfl⟩

theorem evaluate_attemptFrame (s : State) : AttemptFrame s (evaluate s) := by
  rcases evaluate_cases s with h | ⟨i, _, _, _, _, h⟩
  · rw [h]
    exact .refl s
  · rw [h]
    exact (AttemptFrame.modArbiter s rfl rfl).trans (.enter i (by decide) _)

theorem releaseWithoutNip_attemptFrame (i : StandNo) (s : State) : AttemptFrame s (releaseWithoutNip i s) := by
  rcases releaseWithoutNip_cases i s with ⟨_, h⟩ | ⟨_, h⟩
  · rw [h]
    exact .refl s
  · rw [h]
    exact (AttemptFrame.modArbiter s rfl rfl).trans (evaluate_attemptFrame _)

theorem withdraw_attemptFrame (i : StandNo) (s : State) : AttemptFrame s (withdraw i s) := .modArbiter s rfl rfl

theorem setCause_attemptFrame (i : StandNo) (cause : Option AbortCause) (s : State) :
    AttemptFrame s (setCause i cause s) := .modStand i (fun _ => by constructor <;> rfl) s

theorem setTarget_attemptFrame (i : StandNo) (t : WinddownTarget) (s : State) : AttemptFrame s (setTarget i t s) :=
  .modStand i (fun _ => by constructor <;> rfl) s

theorem cancelPaste_attemptFrame (i : StandNo) (s : State) : AttemptFrame s (cancelPaste i s) :=
  .modStand i (fun _ => by constructor <;> rfl) s

theorem dropRunning_attemptFrame (i : StandNo) (s : State) : AttemptFrame s (dropRunning i s) :=
  .modStand i (fun _ => by constructor <;> rfl) s

theorem createAborted_attemptFrame (i : StandNo) (cause : AbortCause) (s : State) :
    AttemptFrame s (createAborted i cause s) := (createAborted_frame i cause s).attempt (createAborted_quiet i cause s)

/-- An abort before the nip (R88). -/
theorem abortAttempt_attemptFrame (i : StandNo) (cause : AbortCause) (target : WinddownTarget) (s : State) :
    AttemptFrame s (abortAttempt i cause target s) := by
  have released := ((setCause_attemptFrame i (some cause) s).trans (withdraw_attemptFrame i _)).trans
    (releaseWithoutNip_attemptFrame i _)
  have woundDown {u : State} (h : AttemptFrame s u) :
      AttemptFrame s (setTarget i target (enter i .winddown (createAborted i cause u))) :=
    h.trans <| (createAborted_attemptFrame i cause u).trans <|
      (AttemptFrame.enter i (by decide) _).trans (setTarget_attemptFrame i target _)
  refine woundDown ?_
  split
  · exact released.trans (cancelPaste_attemptFrame i _)
  · exact released

theorem markLost_attemptFrame (i : StandNo) (s : State) : AttemptFrame s (markLost i s) := by
  unfold markLost
  split
  · exact abortAttempt_attemptFrame i _ _ s
  · exact .refl s

theorem lineFaultConsequence_attemptFrame (i : StandNo) (s : State) :
    AttemptFrame s (lineFaultConsequence i s) := by
  unfold lineFaultConsequence
  split
  · exact abortAttempt_attemptFrame i _ _ s
  · exact abortAttempt_attemptFrame i _ _ s
  · exact abortAttempt_attemptFrame i _ _ s
  · exact .refl s

theorem endWinddown_attemptFrame (i : StandNo) (s : State) : AttemptFrame s (endWinddown i s) := by
  unfold endWinddown
  split
  · exact (dropRunning_attemptFrame i s).trans (.enter i (by decide) _)
  · exact .enter i (by decide) s
  · exact .enter i (by decide) s

/-- A speed sample at one stand (R81, R82, R89, R101, R102, R110). -/
theorem sampleStep_attemptFrame (i : StandNo) (s : State) : AttemptFrame s (sampleStep i s) := by
  have ramp (v : Nat) (b : Bool) : AttemptFrame s (s.modStand i fun d => d.rampStep v b) :=
    .modStand i (fun _ => by constructor <;> rfl) s
  have down (b : Bool) : AttemptFrame s (s.modStand i fun d => d.winddownStep b) :=
    .modStand i (fun _ => by constructor <;> rfl) s
  rcases sampleStep_cases i s with
    h | ⟨_, _, h⟩ | ⟨_, _, _, rfl, h | h | h⟩ | ⟨_, h⟩ | ⟨_, _, rfl, h | ⟨_, h⟩⟩ <;> rw [h]
  · exact .refl s
  · exact abortAttempt_attemptFrame i _ _ s
  · exact ramp _ _
  · exact (ramp _ _).trans (.enter i (by decide) _)
  · exact ((ramp _ _).trans (.enter i (by decide) _)).trans (markLost_attemptFrame i _)
  · exact .modStand i (fun _ => by constructor <;> rfl) s
  · exact down _
  · exact (down _).trans (endWinddown_attemptFrame i _)

theorem sampleStand_attemptFrame (i : StandNo) (s : State) : AttemptFrame s (sampleStand i s) := by
  unfold sampleStand
  dsimp only
  split
  · exact (sampleStep_attemptFrame i s).trans ((touchStand_frame i _).attempt (.of_host (by simp)))
  · exact sampleStep_attemptFrame i s

/-- An operation over the eight stands whose parts have the frame of an attempt has it. -/
theorem forStands_attemptFrame {f : StandNo → State → State} (hf : ∀ i s, AttemptFrame s (f i s)) (s : State) :
    AttemptFrame s (forStands f s) :=
  forStands_induct (P := AttemptFrame s) (fun i t h => h.trans (hf i t)) (.refl s)

end Sys2Proof.Machine
end

section
/-!
PROOFS, chapter 1: copy boundaries. What the tracker's work at a boundary and the hand-over of a boundary leave, and
the frames of the end of an event.
-/
namespace Sys2Proof.Machine

/-! ### The bytes that an event writes -/

/-- The bytes that the end of an event may write are among those that any event may change (R178). -/
theorem eventBytes_of_commitBytes {x : Nat} (h : commitBytes x) : eventBytes x := by
  rcases h with ⟨hl, hh⟩ | ⟨i, hl, hh⟩
  · by_cases hb : x < 0x740
    · exact .inl ⟨hl, by simp only [lineBlockBase]; omega⟩
    · refine .inr (.inr (.inl ⟨⟨(x - 0x740) / 128, by omega⟩, ?_⟩))
      simp only [standBlockBytes, standBlockBase]
      omega
  · refine .inr (.inr (.inr ⟨i, ?_⟩))
    simp only [imageBytes, slotBase]
    omega

theorem not_recordTable_of_not_eventBytes {x : Nat} (h : ¬ eventBytes x) : ¬ (0x0B40 ≤ x ∧ x < 0x1340) :=
  fun hx => h (.inr (.inl (by simpa [recordBytes, recordBase] using hx)))

/-- An event whose work writes the record table alone changes no byte outside those of `eventBytes`. -/
theorem commit_sameOutside {s u : State} (b : State)
    (h : ∀ x, ¬ (0x0B40 ≤ x ∧ x < 0x1340) → u.mem.read x = s.mem.read x) : sameOutside eventBytes s (commit b u) :=
  fun x hx => ((commit_keeps b u).read x fun hc => hx (eventBytes_of_commitBytes hc)).trans
    (h x (not_recordTable_of_not_eventBytes hx))

/-- The end of an event leaves the bytes of the record table. -/
theorem commit_recordBytes (b u : State) {x : Nat} (h : recordBytes x) : (commit b u).mem.read x = u.mem.read x := by
  refine (commit_keeps b u).read x ?_
  simp only [recordBytes, recordBase] at h
  rintro (hc | ⟨i, hc⟩)
  · omega
  · have := i.isLt
    omega

/-! ### The tracker's work at a boundary -/

theorem setEntries_standEvent (es : List TrackEntry) (s : State) : StandEventFrame s (setEntries es s) :=
  .modTracker _ s

theorem queueStep_standEvent (f : Fate) (s : State) : StandEventFrame s (queueStep f s).1 := by
  unfold queueStep
  dsimp only
  split
  · exact (StandEventFrame.modTracker _ s).trans (raise_frame _ _).standEvent
  · exact .modTracker _ s

/-- The fate of the copy from `cb` on (R146). -/
def boundaryFate (cb : Word) (s : State) : Fate :=
  if s.tracker.entries.any fun e => e.overlaps cb (BitVec.ofNat 32 s.line.params.cutoff) then .divert else .pass

/-- The state after the first two steps of a boundary: overlaps counted, finished entries retired (R146, R147). -/
def boundaryRetired (cb n : Word) (s : State) : State :=
  let es := s.tracker.entries.map fun e =>
    if e.overlaps cb (BitVec.ofNat 32 s.line.params.cutoff) then e.overlapped n else e
  retireDelivered (es.filter fun e => e.finished cb) (setEntries (es.filter fun e => !e.finished cb) s)

/-- The four steps of the tracker at a boundary, by their names. -/
theorem trackBoundary_eq (cb n : Word) (s : State) :
    trackBoundary cb n s = (queueStep (boundaryFate cb s) (boundaryRetired cb n s)).1.modTracker fun t =>
      t.setGate s.line.cutStatus (queueStep (boundaryFate cb s) (boundaryRetired cb n s)).2 := rfl

theorem boundaryRetired_standEvent (cb n : Word) (s : State) : StandEventFrame s (boundaryRetired cb n s) :=
  (setEntries_standEvent _ s).trans (retireDelivered_frame _ _).standEvent

theorem trackBoundary_standEvent (cb n : Word) (s : State) : StandEventFrame s (trackBoundary cb n s) := by
  rw [trackBoundary_eq]
  exact (boundaryRetired_standEvent cb n s).trans <| (queueStep_standEvent _ _).trans (.modTracker _ _)

theorem queueStep_quiet (f : Fate) (s : State) : QuietNotices s (queueStep f s).1 := by
  unfold queueStep
  dsimp only
  split
  · exact raise_quiet (n := .gateDegraded) (.inl (by decide)) (s.modTracker _)
  · exact .of_host rfl

theorem trackBoundary_quiet (cb n : Word) (s : State) : QuietNotices s (trackBoundary cb n s) := by
  have retired : QuietNotices s (boundaryRetired cb n s) := retireDelivered_quiet _ (setEntries _ s)
  rw [trackBoundary_eq]
  exact (retired.trans (queueStep_quiet _ _)).trans (.of_host rfl)

@[simp] theorem queueStep_records (f : Fate) (s : State) : (queueStep f s).1.records = s.records := by
  unfold queueStep
  dsimp only
  split <;> rfl

@[simp] theorem trackBoundary_records (cb n : Word) (s : State) : (trackBoundary cb n s).records = s.records := by
  simp [trackBoundary, setEntries]

/-- The last cut status that the tracker holds is the line reference's at the boundary (R154). -/
theorem trackBoundary_lastStatus (cb n : Word) (s : State) :
    (trackBoundary cb n s).tracker.lastStatus = s.line.cutStatus := rfl

/-- A boundary in cut status FAULT sets the gate to DIVERT (R152). -/
theorem trackBoundary_output_of_fault {cb n : Word} {s : State} (h : s.line.cutStatus = .fault) :
    (trackBoundary cb n s).tracker.output = .divert := by
  have hgate (t : Tracker) (popped : Option Fate) : (t.setGate .fault popped).output = .divert := rfl
  simp only [trackBoundary, State.modTracker_tracker, h, hgate]

/-! ### The hand-over of a boundary -/

theorem rewritten_congr {s t : State} (h : t.host.init = s.host.init) (n : Word) : rewritten t n = rewritten s n := by
  simp [rewritten, h]

/-- A rewrite event of the line status block counts once, and not while INIT is 1 (R183). -/
theorem touchLine_lineUpdates (s : State) :
    (touchLine s).host.lineUpdates = s.host.lineUpdates + rewritten s 1 := by
  unfold touchLine rewritten
  split <;> simp

theorem touchLine_host (s : State) :
    (touchLine s).host = { s.host with lineUpdates := (touchLine s).host.lineUpdates } := by
  unfold touchLine
  split <;> rfl

/-- What a hand-over of a boundary leaves: `BoundaryFrame`, the line-wide record unit, the table interface but for NOTICE
and the update count of the line status block, and the bytes outside the record table. -/
structure HandedFrame (s t : State) : Prop extends BoundaryFrame s t where
  records : t.records = s.records
  host    : t.host = { s.host with notice := t.host.notice, lineUpdates := t.host.lineUpdates }
  read    : ∀ x, ¬ (0x0B40 ≤ x ∧ x < 0x1340) → t.mem.read x = s.mem.read x

theorem handBoundary_frame (cb : Word) (s : State) : HandedFrame s (handBoundary cb s) := by
  have frame := trackBoundary_frame cb s.line.copyNumber s
  have event := trackBoundary_standEvent cb s.line.copyNumber s
  unfold handBoundary
  refine ⟨⟨?_, ?_, ?_, ?_, ?_, ?_, fun j => ?_⟩, ?_, ?_, ?_⟩
  · rw [touchLine_line, frame.line]
  · rw [touchLine_safe, frame.safe]
  · rw [touchLine_arbiter, frame.arbiter]
  · rw [touchLine_phases, frame.phases]
  · rw [touchLine_free, frame.free]
  · rw [touchLine_pending, frame.pending]
  · rw [touchLine_stand]
    exact frame.stand j
  · rw [touchLine_records, trackBoundary_records]
  · rw [touchLine_host, event.host]
  · rw [touchLine_mem]
    exact event.read

/-- A boundary has one rewrite event of the line status block (R8, R13). -/
theorem handBoundary_lineUpdates (cb : Word) (s : State) :
    (handBoundary cb s).host.lineUpdates = s.host.lineUpdates + rewritten s 1 := by
  have event := trackBoundary_standEvent cb s.line.copyNumber s
  rw [handBoundary, touchLine_lineUpdates, event.lineUpdates, rewritten_congr event.init]

theorem handBoundary_lastStatus (cb : Word) (s : State) : (handBoundary cb s).tracker.lastStatus = s.line.cutStatus := by
  rw [handBoundary, touchLine_tracker, trackBoundary_lastStatus]

/-- Two changes of a stand's records and counts, one after the other. -/
theorem stand_records_counts {d e f : Stand} (h : e = { d with records := e.records, updateCount := e.updateCount })
    (k : f = { e with imageCount := f.imageCount }) :
    f = { d with records := f.records, updateCount := f.updateCount, imageCount := f.imageCount } := by
  cases d
  cases e
  cases f
  simp_all

/-- A stand after an event that made boundaries alone: only its records and its two counts can differ. -/
theorem boundary_commit_stand {s u t : State} (h : BoundaryFrame s u) (k : CommitKeeps u t) (i : StandNo) :
    t.stand i = { s.stand i with
      records := (t.stand i).records, updateCount := (t.stand i).updateCount
      imageCount := (t.stand i).imageCount } := stand_records_counts (h.stand i) (k.stand i)

/-! ### Saturating counts -/

/-- A saturating increment of a count within its limit (section 5.5). -/
theorem satInc_eq_min {limit n : Nat} (h : n ≤ limit) : satInc limit n = min (n + 1) limit := by
  unfold satInc
  split <;> omega

end Sys2Proof.Machine
end

section
/-!
PROOFS, chapter 1: CUT edges (R6 to R8).
-/
namespace Sys2Proof.Machine

/-- The line reference after a CUT edge has been conditioned (R6). -/
def LineRef.cutHigh (l : LineRef) : LineRef := { l with cut := ⟨true, true, true, 0⟩ }

/-- The CUT edge comes before half a cutoff past the boundary reference (R7). -/
def LineRef.cutTooSoon (l : LineRef) : Prop :=
  ∃ ref, l.boundaryRef = some ref ∧ atOrAfter l.lineCount (ref + BitVec.ofNat 32 (l.params.cutoff / 2)) = false

theorem cutEdgeEvent_eq {s : State} (h : s.line.cut.level = false) :
    cutEdgeEvent s = judgeCut s.line.lineCount (s.modLine LineRef.cutHigh) := by
  simp [cutEdgeEvent, flipInput, putInput, State.input, Input.flip, h, State.modLine, LineRef.cutHigh]

/-- A CUT edge is ignored while V is 0 or below (R7). -/
theorem cutEdgeEvent_of_stopped {s : State} (h : s.line.cut.level = false) (hv : s.line.v ≤ 0) :
    cutEdgeEvent s = s.modLine LineRef.cutHigh := (cutEdgeEvent_eq h).trans (if_pos hv)

/-- A CUT edge before half a cutoff past the boundary reference is spurious (R7). -/
theorem cutEdgeEvent_of_spurious {s : State} (h : s.line.cut.level = false) (hv : 0 < s.line.v)
    (hsoon : s.line.cutTooSoon) : cutEdgeEvent s =
      (s.modLine LineRef.cutHigh).modLine fun l => { l with spuriousCuts := satInc max32 l.spuriousCuts } := by
  obtain ⟨ref, hr, hsoon⟩ := hsoon
  rw [cutEdgeEvent_eq h]
  simp [judgeCut, show ¬ s.line.v ≤ 0 by omega, hr, halfCutoff, hsoon, LineRef.cutHigh]

/-- A CUT edge that is neither ignored nor spurious makes a real boundary (R7). -/
theorem cutEdgeEvent_of_real {s : State} (h : s.line.cut.level = false) (hv : 0 < s.line.v)
    (hreal : ¬ s.line.cutTooSoon) : cutEdgeEvent s =
      handBoundary s.line.lineCount (s.modLine fun l => l.cutHigh.realBoundary s.line.lineCount) := by
  rw [cutEdgeEvent_eq h]
  unfold judgeCut
  rw [if_neg (show ¬ (s.modLine LineRef.cutHigh).line.v ≤ 0 from Int.not_le.mpr hv)]
  split
  · rfl
  · next ref hr =>
    refine if_pos ?_
    exact (Bool.not_eq_false _).mp fun hf => hreal ⟨ref, hr, hf⟩

/-- Settles O27: the three judgements of R7 exclude each other, and each leaves what its own lemma says. -/
theorem cutEdgeIsJudged : Obligations.CutEdgeIsJudged := by
  intro s hlow hcut
  refine ⟨_, takesPlace_pos hlow (show cutEdgeDue s = true by simp [cutEdgeDue, hcut]), ?_⟩
  refine ⟨fun hv => ?_, fun hv hsoon hmax => ?_, fun hv hreal => ?_⟩
  · rw [cutEdgeEvent_of_stopped hcut hv, commit_eq_self (by rfl) fun _ => by rfl]
    rfl
  · rw [cutEdgeEvent_of_spurious hcut hv hsoon, commit_eq_self (by rfl) fun _ => by rfl]
    exact congrArg (fun n => { s with line := { s.line.cutHigh with spuriousCuts := n } }) (satInc_eq_min hmax)
  · rw [cutEdgeEvent_of_real hcut hv hreal]
    have frame := handBoundary_frame s.line.lineCount (s.modLine fun l => l.cutHigh.realBoundary s.line.lineCount)
    have keeps := commit_keeps s
      (handBoundary s.line.lineCount (s.modLine fun l => l.cutHigh.realBoundary s.line.lineCount))
    refine ⟨keeps.line.trans frame.line, ?_, ?_, keeps.safe.trans frame.safe, keeps.arbiter.trans frame.arbiter,
      keeps.phases.trans frame.phases, keeps.free.trans frame.free, keeps.pending.trans frame.pending, fun i => ?_,
      commit_sameOutside s frame.read⟩
    · rw [keeps.host, handBoundary_lineUpdates]
      rfl
    · rw [keeps.tracker, handBoundary_lastStatus]
      rfl
    · exact boundary_commit_stand frame.toBoundaryFrame keeps i

end Sys2Proof.Machine
end

section
/-!
PROOFS, chapter 1: speed samples (R3, R4).
-/
namespace Sys2Proof.Machine

/-- The end of an event leaves what an attempt leaves. -/
theorem CommitKeeps.attemptKeeps {s t : State} (h : CommitKeeps s t) (i : StandNo) :
    AttemptKeeps (s.stand i) (t.stand i) := by
  rw [h.stand i]
  constructor <;> rfl

/-- V_line is V, and 0 where V is negative (R4). -/
theorem toNat_eq_ite (v : Int) : v.toNat = if 0 < v then v.toNat else 0 := by
  split <;> omega

/-- The state after the stands and the arbiter have taken a speed sample (R4; log entry 11). -/
def sampled (s : State) : State := evaluate (forStands sampleStand (s.modLine LineRef.sample))

theorem speedSampleEvent_eq (s : State) : speedSampleEvent s =
    if (sampled s).line.sampleCounter % 10 = 0 then touchLine (sampled s) else sampled s := by
  rw [speedSampleEvent, sampled]

/-- The rewrite event of a sample leaves every field but the update count of the line status block. -/
theorem speedSampleEvent_keeps (s : State) :
    (speedSampleEvent s).line = (sampled s).line ∧ (speedSampleEvent s).safe = (sampled s).safe ∧
      (speedSampleEvent s).arbiter = (sampled s).arbiter ∧ (speedSampleEvent s).tracker = (sampled s).tracker ∧
      (speedSampleEvent s).phases = (sampled s).phases ∧ (speedSampleEvent s).free = (sampled s).free ∧
      (speedSampleEvent s).pending = (sampled s).pending ∧ (speedSampleEvent s).mem = (sampled s).mem ∧
      ∀ i, (speedSampleEvent s).stand i = (sampled s).stand i := by
  rw [speedSampleEvent_eq]
  split <;> simp

/-- Every tenth sample is a rewrite event of the line status block (R183). -/
theorem speedSampleEvent_lineUpdates (s : State) :
    (speedSampleEvent s).host.lineUpdates = (sampled s).host.lineUpdates +
      rewritten (sampled s) (if (sampled s).line.sampleCounter % 10 = 0 then 1 else 0) := by
  rw [speedSampleEvent_eq]
  split
  · rw [touchLine_lineUpdates]
  · simp [rewritten]

/-- The stands and the arbiter take a sample within the frame of an attempt (R81, R89, R101, R102, R110). -/
theorem sampled_attemptFrame (s : State) : AttemptFrame (s.modLine LineRef.sample) (sampled s) :=
  (forStands_attemptFrame sampleStand_attemptFrame _).trans (evaluate_attemptFrame _)

/-- Settles O25: `sampled_attemptFrame` for what the stands' steps leave, `LineRef.sample` for the line reference. -/
theorem speedSampleMeasuresTheLine : Obligations.SpeedSampleMeasuresTheLine := by
  intro s hlow hdue
  refine ⟨_, takesPlace_pos hlow hdue, ?_⟩
  have frame := sampled_attemptFrame s
  have keeps := commit_keeps s (speedSampleEvent s)
  obtain ⟨line, safe, arbiter, tracker, phases, free, pending, mem, stand⟩ := speedSampleEvent_keeps s
  have read (x : Nat) (hx : ¬ (0x0B40 ≤ x ∧ x < 0x1340)) : (speedSampleEvent s).mem.read x = s.mem.read x := by
    rw [mem, frame.read x hx, State.modLine_mem]
  refine ⟨?_, ?_, ?_, ?_, ?_, ?_, ?_, ?_, ?_, commit_sameOutside s read, fun i => ?_⟩
  · rw [keeps.line, line, frame.line, State.modLine_line, LineRef.sample, toNat_eq_ite]
    rfl
  · rw [keeps.host, speedSampleEvent_lineUpdates, frame.line, frame.lineUpdates,
      rewritten_congr (frame.init.trans (congrArg HostSide.init (State.modLine_host s _)))]
    simp only [State.modLine_line, State.modLine_host, LineRef.sample]
    rfl
  · rw [keeps.safe, safe, frame.safe, State.modLine_safe]
  · rw [keeps.tracker, tracker, frame.tracker, State.modLine_tracker]
  · rw [keeps.phases, phases, frame.phases, State.modLine_phases]
  · rw [keeps.free, free, frame.free, State.modLine_free]
  · rw [keeps.pending, pending, frame.pending, State.modLine_pending]
  · rw [keeps.arbiter, arbiter, frame.lastNip, State.modLine_arbiter]
  · rw [keeps.arbiter, arbiter, frame.lastNipValid, State.modLine_arbiter]
  · have ended := keeps.attemptKeeps i
    rw [stand i] at ended
    have kept := (frame.stand i).trans ended
    rw [State.modLine_stand] at kept
    exact ⟨kept.setup, kept.staged, kept.spindle, kept.ready, kept.inputs, kept.duty⟩

end Sys2Proof.Machine
end

section
/-!
PROOFS, chapter 1: what an abort does to the sequencers (R88, R137), stand by stand.
-/
namespace Sys2Proof.Machine

/-! ### Stand by stand -/

theorem mem_standNumbers (j : StandNo) : j ∈ standNumbers := by
  revert j
  decide

/-- What each part of an operation over the stands does for its own stand, and no other part undoes, holds of every
stand after it. -/
theorem forStands_each {P : State → Prop} {Q : StandNo → State → Prop} {f : StandNo → State → State}
    (keep : ∀ i s, P s → P (f i s)) (make : ∀ i s, P s → Q i (f i s))
    (stay : ∀ i j s, P s → Q j s → Q j (f i s)) {s : State} (h : P s) (j : StandNo) : Q j (forStands f s) := by
  have main (is : List StandNo) (s : State) (hs : P s) (hj : j ∈ is ∨ Q j s) :
      Q j (is.foldl (fun s i => f i s) s) := by
    induction is generalizing s with
    | nil => simpa using hj
    | cons i rest ih =>
      refine ih (f i s) (keep i s hs) ?_
      rcases hj with hj | hj
      · rcases List.mem_cons.mp hj with rfl | hj
        · exact .inr (make j s hs)
        · exact .inl hj
      · exact .inr (stay i j s hs hj)
  exact main standNumbers s h (.inl (mem_standNumbers j))

/-! ### Grants -/

/-- From `s` to `t` the sequencers and the request set change by grants alone: a stand whose request is in the set at the
end is as it was, and one whose sequencer has changed had requested the clearance and is ARMED. -/
structure GrantsOnly (s t : State) : Prop where
  requested : ∀ j, t.arbiter.requested j = true →
    s.arbiter.requested j = true ∧ (t.stand j).seq = (s.stand j).seq
  seq : ∀ j, (t.stand j).seq = (s.stand j).seq ∨ s.arbiter.requested j = true ∧ t.phase j = .armed

theorem GrantsOnly.of_eq {s t : State} (hr : t.arbiter.requests = s.arbiter.requests)
    (hs : ∀ j, (t.stand j).seq = (s.stand j).seq) : GrantsOnly s t :=
  ⟨fun j hj => ⟨by simpa [Arbiter.requested, hr] using hj, hs j⟩, fun j => .inl (hs j)⟩

theorem GrantsOnly.trans {s t u : State} (h : GrantsOnly s t) (k : GrantsOnly t u) : GrantsOnly s u where
  requested j hj := by
    obtain ⟨ht, hu⟩ := k.requested j hj
    obtain ⟨hs, hseq⟩ := h.requested j ht
    exact ⟨hs, hu.trans hseq⟩
  seq j := by
    rcases k.seq j with hu | ⟨ht, harmed⟩
    · rcases h.seq j with hseq | ⟨hs, harmed⟩
      · exact .inl (hu.trans hseq)
      · exact .inr ⟨hs, (congrArg Sequencer.phase hu).trans harmed⟩
    · exact .inr ⟨(h.requested j ht).1, harmed⟩

theorem RecordFrame.grantsOnly {s t : State} (h : RecordFrame s t) : GrantsOnly s t :=
  .of_eq (by rw [h.arbiter]) fun j => by rw [h.stand j]

/-- The request set with one stand's request entered or withdrawn. -/
theorem requested_set (a : Arbiter) (i j : StandNo) (b : Bool) :
    ({ a with requests := a.requests.set i.val b i.isLt } : Arbiter).requested j =
      if j = i then b else a.requested j := by
  by_cases h : j = i
  · simp [Arbiter.requested, h]
  · simp [Arbiter.requested, h, show i.val ≠ j.val from fun e => h (Fin.ext e.symm)]

theorem grant_grantsOnly {i : StandNo} {s : State} (h : s.arbiter.requested i = true) : GrantsOnly s (grant i s) := by
  have hreq (j : StandNo) : (grant i s).arbiter.requested j = if j = i then false else s.arbiter.requested j := by
    rw [grant_arbiter]
    exact requested_set s.arbiter i j false
  refine ⟨fun j hj => ?_, fun j => ?_⟩ <;> by_cases hji : j = i
  · simp [hreq, hji] at hj
  · exact ⟨by simpa [hreq, hji] using hj, by simp [grant, enter_stand, hji]⟩
  · exact .inr ⟨hji ▸ h, by rw [grant_phase, if_pos hji]⟩
  · exact .inl (by simp [grant, enter_stand, hji])

/-- An evaluation grants at most one request (R137). -/
theorem evaluate_grantsOnly (s : State) : GrantsOnly s (evaluate s) := by
  rcases evaluate_cases s with h | ⟨i, _, _, _, hreq, h⟩
  · rw [h]
    exact .of_eq rfl fun _ => rfl
  · rw [h]
    exact grant_grantsOnly hreq

theorem releaseWithoutNip_grantsOnly (i : StandNo) (s : State) : GrantsOnly s (releaseWithoutNip i s) := by
  rcases releaseWithoutNip_cases i s with ⟨_, h⟩ | ⟨_, h⟩
  · rw [h]
    exact .of_eq rfl fun _ => rfl
  · rw [h]
    refine GrantsOnly.trans ?_ (evaluate_grantsOnly _)
    exact .of_eq rfl fun _ => rfl

/-! ### The abort -/

/-- The sequencer of a stand that has aborted its attempt (R88). -/
def Sequencer.woundDown (cause : AbortCause) (target : WinddownTarget) (x : Sequencer) : Sequencer :=
  { x with
    phase := .winddown, changes := x.changes + 1, cause := some cause, target := some target
    matchDeadline := none, indexDeadline := none }

/-- The state of an abort before its entry to WINDDOWN: request withdrawn, clearance released, record created. -/
def beforeWinddown (i : StandNo) (cause : AbortCause) (s : State) : State :=
  let released := releaseWithoutNip i (withdraw i (setCause i (some cause) s))
  createAborted i cause (if s.phase i = .pasting then cancelPaste i released else released)

theorem abortAttempt_eq (i : StandNo) (cause : AbortCause) (target : WinddownTarget) (s : State) :
    abortAttempt i cause target s = setTarget i target (enter i .winddown (beforeWinddown i cause s)) := rfl

theorem beforeWinddown_grantsOnly (i : StandNo) (cause : AbortCause) (s : State) :
    GrantsOnly (withdraw i (setCause i (some cause) s)) (beforeWinddown i cause s) := by
  refine (releaseWithoutNip_grantsOnly i _).trans (GrantsOnly.trans ?_ (createAborted_frame i cause _).grantsOnly)
  split
  · refine .of_eq rfl fun j => ?_
    rw [cancelPaste, State.modStand_stand]
    split
    · next h => rw [h]
    · rfl
  · exact .of_eq rfl fun _ => rfl

/-- After the withdrawal the stand's own request is out of the set, and the others stand (R134). -/
theorem withdraw_requested (i j : StandNo) (s : State) :
    (withdraw i s).arbiter.requested j = if j = i then false else s.arbiter.requested j :=
  requested_set s.arbiter i j false

/-- An abort winds its stand down with its cause and target (R88). -/
theorem abortAttempt_seq (i : StandNo) (cause : AbortCause) (target : WinddownTarget) (s : State) :
    ((abortAttempt i cause target s).stand i).seq = (s.stand i).seq.woundDown cause target := by
  have before : ((beforeWinddown i cause s).stand i).seq = { (s.stand i).seq with cause := some cause } := by
    rcases (beforeWinddown_grantsOnly i cause s).seq i with h | ⟨h, _⟩
    · rw [h]
      simp [withdraw, setCause]
    · simp [withdraw_requested] at h
  rw [abortAttempt_eq, setTarget, State.modStand_stand_same, enter_stand, if_pos rfl]
  simp only [Stand.onEntry, Stand.beginWinddown_seq, Stand.changePhase, before, Sequencer.woundDown]

/-- An abort does nothing to the sequencer of another stand, but that it may be granted the clearance (R88, R137). -/
theorem abortAttempt_seq_other {i j : StandNo} (cause : AbortCause) (target : WinddownTarget) (s : State) (h : j ≠ i) :
    ((abortAttempt i cause target s).stand j).seq = (s.stand j).seq ∨
      s.arbiter.requested j = true ∧ (abortAttempt i cause target s).phase j = .armed := by
  have other : (abortAttempt i cause target s).stand j = (beforeWinddown i cause s).stand j := by
    rw [abortAttempt_eq, setTarget, State.modStand_stand_ne _ _ h, enter_stand, if_neg h]
  have start : (withdraw i (setCause i (some cause) s)).stand j = s.stand j := by
    simp [withdraw, setCause, State.modStand_stand_ne _ _ h]
  simp only [State.phase, other]
  rcases (beforeWinddown_grantsOnly i cause s).seq j with hs | ⟨hr, hp⟩
  · exact .inl (by rw [hs, start])
  · exact .inr ⟨by simpa [withdraw_requested, h, setCause] using hr, hp⟩

/-- The requests that stand after an abort are requests of other stands that stood before it (R134). -/
theorem abortAttempt_requested {i j : StandNo} {cause : AbortCause} {target : WinddownTarget} {s : State}
    (h : (abortAttempt i cause target s).arbiter.requested j = true) :
    j ≠ i ∧ s.arbiter.requested j = true ∧ ((abortAttempt i cause target s).stand j).seq = (s.stand j).seq := by
  have arbiter : (abortAttempt i cause target s).arbiter = (beforeWinddown i cause s).arbiter := by
    rw [abortAttempt_eq, setTarget, State.modStand_arbiter, enter_arbiter]
  obtain ⟨hr, hseq⟩ := (beforeWinddown_grantsOnly i cause s).requested j (arbiter ▸ h)
  have hji : j ≠ i := by
    rintro rfl
    simp [withdraw_requested] at hr
  refine ⟨hji, by simpa [withdraw_requested, hji, setCause] using hr, ?_⟩
  rw [abortAttempt_eq, setTarget, State.modStand_stand_ne _ _ hji, enter_stand, if_neg hji, hseq]
  simp [withdraw, setCause, State.modStand_stand_ne _ _ hji]

end Sys2Proof.Machine
end

section
/-!
PROOFS, chapter 1: illegal transitions and the encoder fault (R2, R5, R91).
-/
namespace Sys2Proof.Machine

/-! ### The encoder fault at the stands -/

theorem lineFaultConsequence_of_attempt {i : StandNo} {s : State} (h : (s.phase i).isAttempt) :
    lineFaultConsequence i s = abortAttempt i .lineFault .held s := by
  unfold lineFaultConsequence
  rcases h with h | h | h <;> rw [h]

theorem lineFaultConsequence_of_not_attempt {i : StandNo} {s : State} (h : ¬ (s.phase i).isAttempt) :
    lineFaultConsequence i s = s := by
  unfold lineFaultConsequence
  split
  · next hp => exact absurd (.inl hp) h
  · next hp => exact absurd (.inr (.inl hp)) h
  · next hp => exact absurd (.inr (.inr hp)) h
  · rfl

/-- While the encoder fault is given to the stands of `s` in turn: each request is a MATCHING stand's, a stand of `s` in an
attempt is in one still or has been wound down, and every other stand's sequencer is as it was. -/
structure FaultGiven (s t : State) : Prop where
  matching : ∀ j, t.arbiter.requested j = true → t.phase j = .matching
  attempt : ∀ j, (s.phase j).isAttempt → (t.phase j).isAttempt ∨
    t.phase j = .winddown ∧ (t.stand j).seq.cause = some .lineFault ∧ (t.stand j).seq.target = some .held
  other : ∀ j, ¬ (s.phase j).isAttempt → (t.stand j).seq = (s.stand j).seq

theorem FaultGiven.step {s t : State} (i : StandNo) (h : FaultGiven s t) :
    FaultGiven s (lineFaultConsequence i t) := by
  by_cases hi : (t.phase i).isAttempt
  · rw [lineFaultConsequence_of_attempt hi]
    have hown := abortAttempt_seq i .lineFault .held t
    refine ⟨fun j hj => ?_, fun j hj => ?_, fun j hj => ?_⟩
    · obtain ⟨_, hreq, hseq⟩ := abortAttempt_requested hj
      exact (congrArg Sequencer.phase hseq).trans (h.matching j hreq)
    · by_cases hji : j = i
      · rw [hji]
        exact .inr ⟨congrArg Sequencer.phase hown, congrArg Sequencer.cause hown, congrArg Sequencer.target hown⟩
      · rcases abortAttempt_seq_other .lineFault .held t hji with hseq | ⟨_, harmed⟩
        · simp only [State.phase, hseq]
          exact h.attempt j hj
        · exact .inl (.inr (.inr harmed))
    · have hji : j ≠ i := by
        rintro rfl
        rw [State.phase, h.other j hj] at hi
        exact hj hi
      rcases abortAttempt_seq_other .lineFault .held t hji with hseq | ⟨hreq, _⟩
      · exact hseq.trans (h.other j hj)
      · have hmatch : s.phase j = .matching :=
          (congrArg Sequencer.phase (h.other j hj)).symm.trans (h.matching j hreq)
        exact absurd (.inr (.inl hmatch)) hj
  · rw [lineFaultConsequence_of_not_attempt hi]
    exact h

/-- A stand to which the encoder fault has been given is in no attempt (R91). -/
theorem lineFaultConsequence_ends (i : StandNo) (t : State) : ¬ ((lineFaultConsequence i t).phase i).isAttempt := by
  by_cases hi : (t.phase i).isAttempt
  · rw [lineFaultConsequence_of_attempt hi, State.phase, abortAttempt_seq]
    simp [Phase.isAttempt, Sequencer.woundDown]
  · rw [lineFaultConsequence_of_not_attempt hi]
    exact hi

theorem FaultGiven.stays {s t : State} (i j : StandNo) (h : FaultGiven s t) (hj : ¬ (t.phase j).isAttempt) :
    ¬ ((lineFaultConsequence i t).phase j).isAttempt := by
  by_cases hi : (t.phase i).isAttempt
  · have hji : j ≠ i := by
      rintro rfl
      exact hj hi
    rw [lineFaultConsequence_of_attempt hi]
    rcases abortAttempt_seq_other .lineFault .held t hji with hseq | ⟨hreq, _⟩
    · rwa [State.phase, hseq]
    · exact absurd (.inr (.inl (h.matching j hreq))) hj
  · rw [lineFaultConsequence_of_not_attempt hi]
    exact hj

/-- The encoder fault ends every attempt with LINE_FAULT, target HELD, and reaches no other sequencer (R91). -/
theorem lineFault_ends_attempts {s : State} (h : ∀ j, s.arbiter.requested j = true → s.phase j = .matching)
    (i : StandNo) :
    let t := forStands lineFaultConsequence s
    ((s.phase i).isAttempt → t.phase i = .winddown ∧ (t.stand i).seq.cause = some .lineFault ∧
      (t.stand i).seq.target = some .held) ∧
    (¬ (s.phase i).isAttempt → (t.stand i).seq = (s.stand i).seq) := by
  have start : FaultGiven s s := ⟨h, fun _ => .inl, fun _ _ => rfl⟩
  have given : FaultGiven s (forStands lineFaultConsequence s) :=
    forStands_induct (P := FaultGiven s) (fun i _ => .step i) start
  have ended : ¬ ((forStands lineFaultConsequence s).phase i).isAttempt :=
    forStands_each (P := FaultGiven s) (Q := fun j t => ¬ (t.phase j).isAttempt) (fun i _ => .step i)
      (fun i t _ => lineFaultConsequence_ends i t)
      (fun i j _ hg => hg.stays i j) start i
  exact ⟨fun hi => (given.attempt i hi).resolve_left ended, given.other i⟩

/-! ### Movements of the pair -/

/-- A transition of one, two or three places is a change of the pair, and its movement is the one R1 names. -/
theorem movement_of_places (a b a' b' : Bool) :
    (quadraturePlace a' b' = (quadraturePlace a b + 1) % 4 →
      (a' != a || b' != b) = true ∧ movement a b a' b' = .forward) ∧
    (quadraturePlace a' b' = (quadraturePlace a b + 2) % 4 →
      (a' != a || b' != b) = true ∧ movement a b a' b' = .illegal) ∧
    (quadraturePlace a' b' = (quadraturePlace a b + 3) % 4 →
      (a' != a || b' != b) = true ∧ movement a b a' b' = .backward) := by
  revert a b a' b'
  decide

/-- A change of the pair is of one, two or three places (R1). -/
theorem places_of_change {a b a' b' : Bool} (h : (a' != a || b' != b) = true) :
    quadraturePlace a' b' = (quadraturePlace a b + 1) % 4 ∨ quadraturePlace a' b' = (quadraturePlace a b + 2) % 4 ∨
      quadraturePlace a' b' = (quadraturePlace a b + 3) % 4 := by
  revert a b a' b'
  decide

/-! ### Illegal transitions -/

/-- The line reference after an illegal transition has been counted (R2). -/
def LineRef.illegalCounted (a b : Bool) (l : LineRef) : LineRef :=
  { l with
    refA := a, refB := b
    illegalTotal := satInc max32 l.illegalTotal, windowCount := satInc max16 l.windowCount }

/-- The state after an illegal transition has been counted and its notice raised (R2). -/
def illegalCounted (a b : Bool) (s : State) : State := raise .encError (s.modLine (LineRef.illegalCounted a b))

/-- The encoder fault is raised: the flag and the notice (R5). -/
def raiseEncoderFault (s : State) : State := raise .encFault (s.modLine fun l => { l with encoderFault := true })

theorem quadratureEvent_of_illegal {a b : Bool} {s : State}
    (h : quadraturePlace a b = (quadraturePlace s.line.refA s.line.refB + 2) % 4) :
    quadratureEvent a b s =
      if 16 ≤ satInc max16 s.line.windowCount ∧ s.line.encoderFault = false then
        forStands lineFaultConsequence (raiseEncoderFault (illegalCounted a b s))
      else illegalCounted a b s := by
  unfold quadratureEvent
  rw [((movement_of_places _ _ _ _).2.1 h).2]
  rfl

theorem illegalCounted_notice (a b : Bool) (s : State) {k : Nat} (hk : k < 24) :
    (illegalCounted a b s).host.notice.getLsbD k = (s.host.notice.getLsbD k || decide (9 = k)) :=
  raise_notice_getLsbD .encError (s.modLine (LineRef.illegalCounted a b)) hk

theorem raiseEncoderFault_notice (s : State) {k : Nat} (hk : k < 24) :
    (raiseEncoderFault s).host.notice.getLsbD k = (s.host.notice.getLsbD k || decide (10 = k)) :=
  raise_notice_getLsbD .encFault (s.modLine _) hk

theorem raiseEncoderFault_line (a b : Bool) (s : State) : (raiseEncoderFault (illegalCounted a b s)).line =
    { s.line.illegalCounted a b with encoderFault := true } := rfl

/-- An illegal transition that raises no encoder fault is counted, with its notice, and does nothing else (R2). -/
theorem illegal_counted {a b : Bool} {s : State} (hlow : s.host.resetLow = false)
    (hplace : quadraturePlace a b = (quadraturePlace s.line.refA s.line.refB + 2) % 4)
    (h : ¬ (16 ≤ satInc max16 s.line.windowCount ∧ s.line.encoderFault = false)) :
    exec (.quadratureTransition a b) s = .next (illegalCounted a b s) := by
  have hevent := (quadratureEvent_of_illegal hplace).trans (if_neg h)
  refine (takesPlace_pos hlow ((movement_of_places _ _ _ _).2.1 hplace).1).trans ?_
  rw [hevent, commit_eq_self (by rfl) fun _ => by rfl]

/-- An illegal transition that raises the encoder fault (R5, R91). -/
theorem illegal_raised {a b : Bool} {s : State} (hlow : s.host.resetLow = false)
    (hplace : quadraturePlace a b = (quadraturePlace s.line.refA s.line.refB + 2) % 4)
    (h : 16 ≤ satInc max16 s.line.windowCount ∧ s.line.encoderFault = false) :
    exec (.quadratureTransition a b) s =
      .next (commit s (forStands lineFaultConsequence (raiseEncoderFault (illegalCounted a b s)))) := by
  have hevent := (quadratureEvent_of_illegal hplace).trans (if_pos h)
  refine (takesPlace_pos hlow ((movement_of_places _ _ _ _).2.1 hplace).1).trans ?_
  rw [hevent]

/-- The line reference after an illegal transition with its fault flag, within the counts' limits (R2, R5). -/
theorem illegalCounted_line_eq {a b fault : Bool} {l : LineRef} (ht : l.illegalTotal ≤ 4294967295)
    (hw : l.windowCount ≤ 65535)
    (h : fault = (l.encoderFault || decide (16 ≤ satInc max16 l.windowCount) && !l.encoderFault)) :
    { l.illegalCounted a b with encoderFault := fault } = { l with
      refA := a, refB := b, illegalTotal := min (l.illegalTotal + 1) 4294967295
      windowCount := min (l.windowCount + 1) 65535
      encoderFault := l.encoderFault || decide (16 ≤ min (l.windowCount + 1) 65535) && !l.encoderFault } := by
  rw [h, LineRef.illegalCounted, satInc_eq_min (limit := max32) ht, satInc_eq_min (limit := max16) hw]
  rfl

/-- R5: the end of an encoder fault window is a step of the line reference alone. -/
theorem windowEnd_exec {s : State} (hlow : s.host.resetLow = false) (hdue : s.line.windowEndDue = true) :
    exec .encoderFaultWindowEnd s = .next { s with line := { s.line with
      encoderFault := if s.line.windowCount = 0 then false else s.line.encoderFault
      windowCount := 0, windowEndDue := false } } :=
  takesPlace_plain hlow hdue rfl fun _ => rfl

theorem CommitKeeps.seq {s t : State} (h : CommitKeeps s t) (i : StandNo) : (t.stand i).seq = (s.stand i).seq := by
  rw [h.stand i]

/-- The stands after an encoder fault, from a state with the law of the clearance (R91). -/
theorem encoderFault_stands (a b : Bool) {s : State} (law : ClearanceLaw s) (i : StandNo) :
    let t := commit s (forStands lineFaultConsequence (raiseEncoderFault (illegalCounted a b s)))
    ((s.phase i).isAttempt → t.phase i = .winddown ∧ (t.stand i).seq.cause = some .lineFault ∧
      (t.stand i).seq.target = some .held) ∧
    (¬ (s.phase i).isAttempt → (t.stand i).seq = (s.stand i).seq) := by
  have matching (j : StandNo) (hj : s.arbiter.requested j = true) : s.phase j = .matching := ((law j).2.1.mp hj).1
  have ends := lineFault_ends_attempts (s := raiseEncoderFault (illegalCounted a b s)) matching i
  simp only [State.phase, (commit_keeps s _).seq i] at ends ⊢
  exact ends

/-- Settles O24: an illegal transition is counted; where it raises the encoder fault, `lineFault_ends_attempts` says what
the stands do. -/
theorem illegalTransitionsAndTheirWindow : Obligations.IllegalTransitionsAndTheirWindow := by
  refine ⟨fun a b s hlow hplace => ?_, fun s => windowEnd_exec⟩
  by_cases hraise : 16 ≤ satInc max16 s.line.windowCount ∧ s.line.encoderFault = false
  · refine ⟨_, illegal_raised hlow hplace hraise, ?_⟩
    obtain ⟨hcount, hclear⟩ := hraise
    have frame := forStands_attemptFrame lineFaultConsequence_attemptFrame (raiseEncoderFault (illegalCounted a b s))
    have keeps := commit_keeps s (forStands lineFaultConsequence (raiseEncoderFault (illegalCounted a b s)))
    have line := keeps.line.trans frame.line
    have notice (k : Nat) (h7 : 7 ≤ k) (h16 : k < 16) := frame.notices k h7 h16
    refine ⟨fun ht hw => ?_, ?_, ?_, keeps.tracker.trans frame.tracker, fun hsame => ?_,
      fun law _ _ => encoderFault_stands a b law⟩
    · rw [line, raiseEncoderFault_line]
      exact illegalCounted_line_eq (fault := true) ht hw (by simp [hcount, hclear])
    · rw [keeps.host, notice 9 (by omega) (by omega), raiseEncoderFault_notice _ (by omega),
        illegalCounted_notice _ _ _ (by omega)]
      simp
    · rw [keeps.host, notice 10 (by omega) (by omega), raiseEncoderFault_notice _ (by omega),
        illegalCounted_notice _ _ _ (by omega), line, raiseEncoderFault_line]
      simp [LineRef.illegalCounted, hcount, hclear]
    · have raised : (commit s _).line.encoderFault = true := congrArg LineRef.encoderFault line
      simp [hclear, raised] at hsame
  · refine ⟨_, illegal_counted hlow hplace hraise, ?_⟩
    have flag : s.line.encoderFault =
        (s.line.encoderFault || decide (16 ≤ satInc max16 s.line.windowCount) && !s.line.encoderFault) := by
      cases hclear : s.line.encoderFault <;> simp_all
    refine ⟨fun ht hw => illegalCounted_line_eq ht hw flag, ?_, ?_, rfl, fun _ => rfl, fun _ hclear hset => ?_⟩
    · rw [illegalCounted_notice _ _ _ (by omega)]
      simp
    · have uncounted : (decide (16 ≤ (illegalCounted a b s).line.windowCount) && !s.line.encoderFault) = false := by
        refine Bool.eq_false_iff.mpr fun h => hraise ?_
        simp only [Bool.and_eq_true, decide_eq_true_eq, Bool.not_eq_true'] at h
        exact h
      rw [illegalCounted_notice _ _ _ (by omega), uncounted]
      simp
    · exact absurd (hclear.symm.trans hset) (by decide)

end Sys2Proof.Machine
end

section
/-!
PROOFS, chapter 1: the synthetic threshold (R9, R10): what one synthetic boundary does, and the loop over them.
-/
namespace Sys2Proof.Machine

/-! ### States that agree for the record unit -/

/-- The two states agree in what a retirement reads and writes: the table, INIT, and of each stand the records and the
update count. -/
structure RecordAgree (s t : State) : Prop where
  mem         : t.mem = s.mem
  init        : t.host.init = s.host.init
  records     : ∀ i, (t.stand i).records = (s.stand i).records
  updateCount : ∀ i, (t.stand i).updateCount = (s.stand i).updateCount

theorem RecordAgree.trans {s t u : State} (h : RecordAgree s t) (k : RecordAgree t u) : RecordAgree s u :=
  ⟨k.mem.trans h.mem, k.init.trans h.init, fun i => (k.records i).trans (h.records i),
    fun i => (k.updateCount i).trans (h.updateCount i)⟩

theorem RecordAgree.raise {s t : State} (h : RecordAgree s t) (n m : Notice) :
    RecordAgree (raise n s) (raise m t) := ⟨h.mem, h.init, h.records, h.updateCount⟩

theorem RecordAgree.touchStand {s t : State} (h : RecordAgree s t) (i : StandNo) :
    RecordAgree (touchStand i s) (touchStand i t) := by
  refine ⟨by simp [h.mem], by simp [h.init], fun j => ?_, fun j => ?_⟩
  · simp only [touchStand_stand, h.init]
    split
    · exact h.records i
    · exact h.records j
  · simp only [touchStand_stand, h.init]
    split
    · exact congrArg (· + 1) (h.updateCount i)
    · exact h.updateCount j

theorem RecordAgree.recordEvent {s t : State} (h : RecordAgree s t) (i : StandNo) :
    RecordAgree (recordEvent i s) (recordEvent i t) := (h.raise _ _).touchStand i

theorem RecordAgree.setMem {s t : State} (h : RecordAgree s t) (m : Memory) :
    RecordAgree (s.setMem m) (t.setMem m) := ⟨rfl, h.init, h.records, h.updateCount⟩

theorem RecordAgree.setEntries {s t : State} (h : RecordAgree s t) (es : List TrackEntry) :
    RecordAgree (setEntries es s) (setEntries es t) := ⟨h.mem, h.init, h.records, h.updateCount⟩

theorem RecordAgree.modRecords {s t : State} (h : RecordAgree s t) (i : StandNo) (f : StandRecords → StandRecords) :
    RecordAgree (s.modStand i fun d => { d with records := f d.records })
      (t.modStand i fun d => { d with records := f d.records }) := by
  refine ⟨h.mem, h.init, fun j => ?_, fun j => ?_⟩
  · simp only [State.modStand_stand]
    split
    · exact congrArg f (h.records i)
    · exact h.records j
  · simp only [State.modStand_stand]
    split
    · exact h.updateCount i
    · exact h.updateCount j

/-- A retirement takes agreeing states to agreeing states (R173, R174). -/
theorem RecordAgree.applyRetirement {s t : State} (h : RecordAgree s t) (serial : Nat) (i : StandNo)
    (result : Retirement) : RecordAgree (applyRetirement serial i result s) (applyRetirement serial i result t) := by
  have unmatched := (h.modRecords i fun r =>
    { r with report := some ⟨serial, result⟩, unmatchedCount := r.unmatchedCount + 1 }).recordEvent i
  unfold Machine.applyRetirement
  simp only [h.records i, h.mem]
  split
  · next q hq =>
    split
    · exact (h.modRecords i fun r =>
        { r with pending := some { q with record := { q.record with delivery := some result } } }).recordEvent i
    · split
      · exact (h.setMem _).recordEvent i
      · exact unmatched
  · split
    · exact (h.setMem _).recordEvent i
    · exact unmatched

theorem RecordAgree.retireLost {s t : State} (h : RecordAgree s t) (es : List TrackEntry) :
    RecordAgree (retireLost es s) (retireLost es t) := by
  unfold Machine.retireLost
  induction es generalizing s t with
  | nil => exact h
  | cons e rest ih => exact ih (h.applyRetirement e.serial e.stand .lost)

theorem RecordAgree.retireDelivered {s t : State} (h : RecordAgree s t) (es : List TrackEntry) :
    RecordAgree (retireDelivered es s) (retireDelivered es t) := by
  unfold Machine.retireDelivered
  induction es generalizing s t with
  | nil => exact h
  | cons e rest ih => exact ih ((h.applyRetirement e.serial e.stand _).raise _ _)

theorem queueStep_agree (f : Fate) (s : State) : RecordAgree s (queueStep f s).1 := by
  unfold queueStep
  dsimp only
  split <;> exact ⟨rfl, rfl, fun _ => rfl, fun _ => rfl⟩

/-- The queue step reads and writes the tracker alone, beside the notice of a degraded append (R149 to R151). -/
theorem queueStep_congr {f : Fate} {s t : State} (hl : t.line = s.line) (ht : t.tracker = s.tracker) :
    (queueStep f t).1.tracker = (queueStep f s).1.tracker ∧ (queueStep f t).2 = (queueStep f s).2 := by
  unfold queueStep
  simp only [hl, ht]
  split <;> simp [ht]

/-- The tracker after a boundary, and what the boundary does to the records, read the line reference, the tracker and the
records alone. -/
theorem trackBoundary_congr {s t : State} (h : RecordAgree s t) (hl : t.line = s.line) (ht : t.tracker = s.tracker)
    (cb n : Word) : (trackBoundary cb n t).tracker = (trackBoundary cb n s).tracker ∧
      RecordAgree (trackBoundary cb n s) (trackBoundary cb n t) := by
  have fate : boundaryFate cb t = boundaryFate cb s := by rw [boundaryFate, hl, ht, boundaryFate]
  have retired : RecordAgree (boundaryRetired cb n s) (boundaryRetired cb n t) := by
    simp only [boundaryRetired, hl, ht]
    exact (h.setEntries _).retireDelivered _
  have line : (boundaryRetired cb n t).line = (boundaryRetired cb n s).line := by
    rw [(boundaryRetired_standEvent cb n t).line, (boundaryRetired_standEvent cb n s).line, hl]
  have tracker : (boundaryRetired cb n t).tracker = (boundaryRetired cb n s).tracker := by
    unfold boundaryRetired
    rw [(retireDelivered_frame _ _).tracker, (retireDelivered_frame _ _).tracker, hl, ht]
    simp only [setEntries, State.modTracker_tracker, ht]
  obtain ⟨queue, popped⟩ := queueStep_congr (f := boundaryFate cb s) line tracker
  rw [trackBoundary_eq, trackBoundary_eq, fate]
  refine ⟨?_, ?_⟩
  · simp only [State.modTracker_tracker, queue, popped, hl]
  · have work : RecordAgree (queueStep (boundaryFate cb s) (boundaryRetired cb n s)).1
        (queueStep (boundaryFate cb s) (boundaryRetired cb n t)).1 := by
      have hs := queueStep_agree (boundaryFate cb s) (boundaryRetired cb n s)
      have ht := queueStep_agree (boundaryFate cb s) (boundaryRetired cb n t)
      exact ⟨by rw [ht.mem, hs.mem, retired.mem], by rw [ht.init, hs.init, retired.init],
        fun i => by rw [ht.records, hs.records, retired.records],
        fun i => by rw [ht.updateCount, hs.updateCount, retired.updateCount]⟩
    exact ⟨work.mem, work.init, work.records, work.updateCount⟩

/-! ### One synthetic boundary -/

theorem raiseCutNotice_notice (run : Nat) (s : State) {k : Nat} (hk : k < 24) :
    (raiseCutNotice run s).host.notice.getLsbD k =
      (s.host.notice.getLsbD k || decide (run = 1 ∧ k = 7 ∨ run = 9 ∧ k = 8)) := by
  unfold raiseCutNotice
  split
  · next h =>
    rw [raise_notice_getLsbD _ _ hk]
    simp [h, noticeBit, eq_comm]
  · split
    · next h =>
      rw [raise_notice_getLsbD _ _ hk]
      simp [h, noticeBit, eq_comm]
    · next h1 h9 => simp [h1, h9]

theorem HandedFrame.refl (s : State) : HandedFrame s s :=
  ⟨⟨rfl, rfl, rfl, rfl, rfl, rfl, fun _ => rfl⟩, rfl, rfl, fun _ _ => rfl⟩

theorem HandedFrame.trans {s t u : State} (h : HandedFrame s t) (k : HandedFrame t u) : HandedFrame s u :=
  ⟨h.toBoundaryFrame.trans k.toBoundaryFrame, k.records.trans h.records, by rw [k.host, h.host],
    fun x hx => (k.read x hx).trans (h.read x hx)⟩

theorem HandedFrame.raise {s t : State} (h : HandedFrame s t) (n : Notice) : HandedFrame s (raise n t) :=
  ⟨⟨h.line, h.safe, h.arbiter, h.phases, h.free, h.pending, h.stand⟩, h.records, by rw [Machine.raise,
    State.modHost_host, h.host], h.read⟩

theorem raiseCutNotice_frame (run : Nat) (s : State) : HandedFrame s (raiseCutNotice run s) := by
  unfold raiseCutNotice
  split
  · exact (HandedFrame.refl s).raise _
  · split
    · exact (HandedFrame.refl s).raise _
    · exact .refl s

theorem raiseCutNotice_agree (run : Nat) (s : State) : RecordAgree s (raiseCutNotice run s) := by
  unfold raiseCutNotice
  split
  · exact ⟨rfl, rfl, fun _ => rfl, fun _ => rfl⟩
  · split <;> exact ⟨rfl, rfl, fun _ => rfl, fun _ => rfl⟩

@[simp] theorem raiseCutNotice_tracker (run : Nat) (s : State) : (raiseCutNotice run s).tracker = s.tracker := by
  unfold raiseCutNotice
  split
  · rfl
  · split <;> rfl

/-- The state in which a synthetic boundary is handed over: line reference and notice are set (R8, R10). -/
def syntheticNoticed (cb : Word) (s : State) : State :=
  raiseCutNotice (satInc max16 s.line.syntheticRun) (s.modLine (LineRef.syntheticBoundary cb))

theorem makeSynthetic_eq (cb : Word) (s : State) : makeSynthetic cb s = handBoundary cb (syntheticNoticed cb s) := rfl

theorem syntheticNoticed_line (cb : Word) (s : State) : (syntheticNoticed cb s).line = s.line.syntheticBoundary cb :=
  (raiseCutNotice_frame _ _).line

/-- A synthetic boundary changes the line reference, and beside it only what the hand-over of a boundary changes. -/
theorem makeSynthetic_frame (cb : Word) (s : State) :
    HandedFrame (s.modLine (LineRef.syntheticBoundary cb)) (makeSynthetic cb s) :=
  (raiseCutNotice_frame _ _).trans (handBoundary_frame cb _)

/-! ### The loop -/

/-- What an examination of the threshold leaves: of the line reference all but the five values of a boundary (R8), and
what the hand-overs of its boundaries leave. -/
structure ExaminedFrame (s t : State) : Prop where
  line : t.line = { s.line with
    boundaryRef := t.line.boundaryRef, lastKind := t.line.lastKind, copyNumber := t.line.copyNumber
    cutStatus := t.line.cutStatus, syntheticRun := t.line.syntheticRun }
  handed : HandedFrame (s.modLine fun _ => t.line) t

theorem ExaminedFrame.refl (s : State) : ExaminedFrame s s := ⟨rfl, .refl s⟩

theorem HandedFrame.setLine {s t : State} (h : HandedFrame s t) (l : LineRef) :
    HandedFrame (s.modLine fun _ => l) (t.modLine fun _ => l) :=
  ⟨⟨rfl, h.safe, h.arbiter, h.phases, h.free, h.pending, h.stand⟩, h.records, h.host, h.read⟩

theorem ExaminedFrame.trans {s t u : State} (h : ExaminedFrame s t) (k : ExaminedFrame t u) : ExaminedFrame s u where
  line := by rw [k.line, h.line]
  handed := (h.handed.setLine u.line).trans k.handed

theorem makeSynthetic_examined (cb : Word) (s : State) : ExaminedFrame s (makeSynthetic cb s) := by
  have frame := makeSynthetic_frame cb s
  refine ⟨?_, ?_⟩
  · rw [makeSynthetic_line]
    rfl
  · rw [makeSynthetic_line]
    exact frame

theorem syntheticLoop_examined (fuel : Nat) (s : State) : ExaminedFrame s (syntheticLoop fuel s) := by
  induction fuel generalizing s with
  | zero => exact .refl s
  | succ fuel ih =>
    unfold syntheticLoop
    split
    · exact (makeSynthetic_examined _ s).trans (ih _)
    · exact .refl s

/-- Everything that an examination of the threshold leaves. -/
theorem examineThreshold_examined (s : State) : ExaminedFrame s (examineThreshold s) := syntheticLoop_examined _ s

/-- The line reference that an examination leaves depends on the line reference alone. -/
theorem syntheticLoop_line_congr (fuel : Nat) {s t : State} (h : t.line = s.line) :
    (syntheticLoop fuel t).line = (syntheticLoop fuel s).line := by
  induction fuel generalizing s t with
  | zero => exact h
  | succ fuel ih =>
    unfold syntheticLoop
    rw [h]
    split
    · exact ih (by rw [makeSynthetic_line, makeSynthetic_line, h])
    · exact h

theorem examineThreshold_line_congr {s t : State} (h : t.line = s.line) :
    (examineThreshold t).line = (examineThreshold s).line := by
  unfold examineThreshold
  rw [h]
  exact syntheticLoop_line_congr _ h

/-! ### The threshold -/

/-- A distance past a sum is the distance past its parts one after the other, on words that wrap. -/
theorem word_sub_add (c a b : Word) : c - (a + b) = c - a - b := by
  bv_omega

/-- A line count at or after the threshold lies a whole cutoff and more past the boundary reference, so that the new
boundary is a cutoff nearer to it (R9). -/
theorem distance_after_boundary {c ref : Word} {cutoff : Nat} (hc : cutoff ≤ 20000)
    (h : atOrAfter c (ref + BitVec.ofNat 32 cutoff + BitVec.ofNat 32 (cutoff / 2)) = true) :
    (c - ref).toNat = (c - (ref + BitVec.ofNat 32 cutoff)).toNat + cutoff := by
  have hmod (n : Nat) (hn : n ≤ 20000) : n % 2 ^ 32 = n := Nat.mod_eq_of_lt (by omega)
  unfold atOrAfter at h
  rw [word_sub_add, word_sub_add] at h
  rw [word_sub_add]
  generalize c - ref = d at h ⊢
  simp only [decide_eq_true_eq, BitVec.toNat_sub, BitVec.toNat_ofNat, hmod cutoff hc,
    hmod (cutoff / 2) (by omega)] at h ⊢
  have hd := d.isLt
  have hfar : cutoff ≤ d.toNat := Nat.le_of_not_lt fun hnear => by
    have wrapped : 2 ^ 32 - cutoff / 2 + (2 ^ 32 - cutoff + d.toNat) =
        2 ^ 32 + (2 ^ 32 - cutoff + d.toNat - cutoff / 2) := by omega
    rw [Nat.mod_eq_of_lt (show 2 ^ 32 - cutoff + d.toNat < 2 ^ 32 by omega), wrapped, Nat.add_mod_left,
      Nat.mod_eq_of_lt (by omega)] at h
    omega
  omega

theorem examineThreshold_of_none {s : State} (h : s.line.boundaryRef = none) : examineThreshold s = s := by
  simp [examineThreshold, syntheticBound, h, syntheticLoop]

/-- Before the threshold an examination makes no boundary (R9). -/
theorem examineThreshold_of_before {s : State} {ref : Word} (hr : s.line.boundaryRef = some ref)
    (h : atOrAfter s.line.lineCount (syntheticThreshold s.line.params ref) = false) : examineThreshold s = s := by
  simp [examineThreshold, syntheticBound, hr, syntheticLoop, syntheticDue, h]

/-- At or after the threshold an examination makes one boundary and examines again (R9). -/
theorem examineThreshold_of_due {s : State} {ref : Word} (hr : s.line.boundaryRef = some ref)
    (hlo : 1 ≤ s.line.params.cutoff) (hhi : s.line.params.cutoff ≤ 20000)
    (h : atOrAfter s.line.lineCount (syntheticThreshold s.line.params ref) = true) :
    examineThreshold s = examineThreshold (makeSynthetic (ref + BitVec.ofNat 32 s.line.params.cutoff) s) ∧
      syntheticBound s.line =
        syntheticBound (makeSynthetic (ref + BitVec.ofNat 32 s.line.params.cutoff) s).line + 1 := by
  have hdue : syntheticDue s.line = some (ref + BitVec.ofNat 32 s.line.params.cutoff) :=
    syntheticDue_eq_some.mpr ⟨ref, hr, h, rfl⟩
  have hbound : syntheticBound s.line =
      syntheticBound (makeSynthetic (ref + BitVec.ofNat 32 s.line.params.cutoff) s).line + 1 := by
    have hdist := distance_after_boundary hhi h
    rw [makeSynthetic_line]
    simp only [syntheticBound, hr, LineRef.syntheticBoundary, hdist]
    rw [Nat.add_div_right _ (by omega)]
  refine ⟨?_, hbound⟩
  unfold examineThreshold
  rw [hbound, syntheticLoop, hdue]

/-- After an examination the threshold lies ahead (R9). -/
theorem examineThreshold_ends {s : State} (hlo : 1 ≤ s.line.params.cutoff) (hhi : s.line.params.cutoff ≤ 20000)
    {ref : Word} (h : (examineThreshold s).line.boundaryRef = some ref) :
    atOrAfter s.line.lineCount (syntheticThreshold s.line.params ref) = false := by
  generalize hb : syntheticBound s.line = bound
  induction bound generalizing s with
  | zero =>
    cases hr : s.line.boundaryRef with
    | none => rw [examineThreshold_of_none hr, hr] at h; cases h
    | some r => simp [syntheticBound, hr] at hb
  | succ bound ih =>
    cases hr : s.line.boundaryRef with
    | none => rw [examineThreshold_of_none hr, hr] at h; cases h
    | some r =>
      cases hd : atOrAfter s.line.lineCount (syntheticThreshold s.line.params r) with
      | false =>
        rw [examineThreshold_of_before hr hd, hr] at h
        rwa [← Option.some.inj h]
      | true =>
        obtain ⟨hagain, hless⟩ := examineThreshold_of_due hr hlo hhi hd
        rw [hagain] at h
        have line := makeSynthetic_line (r + BitVec.ofNat 32 s.line.params.cutoff) s
        have ends := ih (by rw [line]; exact hlo) (by rw [line]; exact hhi) h (by omega)
        rwa [line] at ends

end Sys2Proof.Machine
end

section
/-!
PROOFS, chapter 1: LINE SETUP (R11, R12, R158).
-/
namespace Sys2Proof.Machine

/-! ### The intake of the LINE slot -/

/-- The state in which the owner of a LINE request finds the part: the member is out of the attention set (R180). -/
def lineTaken (s : State) : State := removeMember (attentionBit .line) s

/-- A LINE request that is taken in: the owner's rule acts, and the answer is its result (R180). -/
theorem line_intake {kind : Nat} {owner : State → Result × State} {s : State} (hlow : s.host.resetLow = false)
    (hdue : requestDue .line kind s = true) : intake .line kind owner s =
      .next (answer .line kind (owner (lineTaken s)).1 (commit (lineTaken s) (owner (lineTaken s)).2)) := by
  have hkind : headerKind (s.header .line) = kind := by
    simp only [requestDue, Bool.and_eq_true, beq_iff_eq] at hdue
    exact hdue.2
  rw [intake_pos hlow hdue, ← hkind]
  rfl

/-- The header of an answered slot (R180). -/
theorem answer_header (slot : Slot) (kind : Nat) (r : Result) (s : State) :
    (answer slot kind r s).header slot = doneHeader kind r := by
  have mem : (answer slot kind r s).mem = s.mem.writeWord (slotBase slot) (doneHeader kind r) := by
    cases slot <;> rfl
  rw [State.header, mem, Memory.writeWord_readWord]

/-- An answer writes no byte outside the header. -/
theorem answer_sameOutside (slot : Slot) (kind : Nat) (r : Result) {s u : State} (h : u.mem = s.mem) :
    sameOutside (headerBytes slot) s (answer slot kind r u) := by
  have mem : (answer slot kind r u).mem = u.mem.writeWord (slotBase slot) (doneHeader kind r) := by
    cases slot <;> rfl
  intro x hx
  rw [mem, h]
  refine Memory.writeWord_read_outside _ _ _ ?_
  simp only [headerBytes] at hx
  omega

/-- A LINE request that is answered without any effect of its own. -/
theorem line_answered (kind : Nat) (r : Result) (s : State) : Answered .line kind r s (answer .line kind r (lineTaken s)) :=
  ⟨answer_header .line kind r _, rfl, rfl, rfl, rfl, fun _ => rfl⟩

/-! ### The judgement -/

/-- A present cutoff or G is out of range (R11). -/
theorem lineRequest_not_inRange (r : LineRequest) : r.inRange = false ↔
    (∃ n, r.cutoff = some n ∧ ¬ (1000 ≤ n ∧ n ≤ 20000)) ∨ ∃ n, r.gateDelay = some n ∧ ¬ (1 ≤ n ∧ n ≤ 64) := by
  have field (lo hi : Nat) (x : Option Nat) :
      presentInRange lo hi x = false ↔ ∃ n, x = some n ∧ ¬ (lo ≤ n ∧ n ≤ hi) := by
    cases x <;> simp [presentInRange, inRange]
  rw [LineRequest.inRange, Bool.and_eq_false_iff, field, field]

/-- A present value of clamped class lies outside its range (R11). -/
theorem lineRequest_clamps (r : LineRequest) : r.clamps = true ↔
    (∃ n, r.preMargin = some n ∧ 50000 < n) ∨ (∃ n, r.postMargin = some n ∧ 50000 < n) ∨
      (∃ n, r.clearance = some n ∧ 2000000 < n) ∨ ∃ n, r.vMin = some n ∧ ¬ (10 ≤ n ∧ n ≤ 1000) := by
  have upTo (hi : Nat) (x : Option Nat) : presentInRange 0 hi x = false ↔ ∃ n, x = some n ∧ hi < n := by
    cases x <;> simp [presentInRange, inRange]
  have within (lo hi : Nat) (x : Option Nat) :
      presentInRange lo hi x = false ↔ ∃ n, x = some n ∧ ¬ (lo ≤ n ∧ n ≤ hi) := by
    cases x <;> simp [presentInRange, inRange]
  rw [LineRequest.clamps, Bool.not_eq_true', Bool.and_eq_false_iff, Bool.and_eq_false_iff, Bool.and_eq_false_iff, upTo,
    upTo, upTo, within, or_assoc, or_assoc]

/-- A present value of clamped class replaces the stored one, clamped (R11). -/
theorem clampedOr_eq {lo hi : Nat} (h : lo ≤ hi) (stored : Nat) (x : Option Nat) :
    clampedOr lo hi stored x = (x.map fun n => max lo (min n hi)).getD stored := by
  cases x with
  | none => rfl
  | some n =>
    simp only [clampedOr, clampNat, Option.map_some, Option.getD_some]
    split
    · omega
    · split <;> omega

/-- The merge of R11, value by value. -/
theorem lineRequest_merge (r : LineRequest) (p : LineParams) : r.merge p =
    ⟨r.cutoff.getD p.cutoff, r.gateDelay.getD p.gateDelay,
      (r.preMargin.map fun n => min n 50000).getD p.preMargin,
      (r.postMargin.map fun n => min n 50000).getD p.postMargin,
      (r.clearance.map fun n => min n 2000000).getD p.clearance,
      (r.vMin.map fun n => max 10 (min n 1000)).getD p.vMin⟩ := by
  simp [LineRequest.merge, clampedOr_eq]

/-! ### The merge and its hand-overs -/

/-- The state with the request's values merged, before the hand-overs (R11). -/
def lineMerged (s : State) : State :=
  (lineTaken s).modLine fun l => { l with params := s.lineRequest.merge l.params }

/-- The owner of LINE SETUP judges, merges, and hands over G and the cutoff (R11, R12; log entry 14). -/
theorem lineSetupOwner_eq (s : State) : lineSetupOwner (lineTaken s) =
    if s.lineRequest.inRange then
      (acceptedWith s.lineRequest.clamps, handCutoff s.line.params (handGateDelay s.line.params (lineMerged s)))
    else (.refusedRange, lineTaken s) := rfl

/-- A hand-over of G keeps everything but the run queue and the gate output, and keeps these where G is the same (R12). -/
theorem handGateDelay_cases (before : LineParams) (s : State) :
    s.line.params.gateDelay = before.gateDelay ∧ handGateDelay before s = s ∨
      s.line.params.gateDelay ≠ before.gateDelay ∧ handGateDelay before s = s.modTracker Tracker.emptyQueue := by
  unfold handGateDelay
  split
  · next h => exact .inl ⟨h, rfl⟩
  · next h => exact .inr ⟨h, rfl⟩

@[simp] theorem handGateDelay_line (before : LineParams) (s : State) : (handGateDelay before s).line = s.line := by
  rcases handGateDelay_cases before s with ⟨_, h⟩ | ⟨_, h⟩ <;> rw [h]
  rfl

/-- The emptied queue leaves the gate in NORMAL mode at DIVERT (R152, R158). -/
theorem emptyQueue_output {t : Tracker} (h : t.mode = .normal) : t.emptyQueue.output = .divert := by
  simp only [Tracker.emptyQueue, gateLevel, h]
  split <;> rfl

/-- An examination of the threshold leaves the line parameters. -/
theorem examineThreshold_params (s : State) : (examineThreshold s).line.params = s.line.params := by
  rw [(examineThreshold_examined s).line]

/-- An accepted LINE SETUP, and the state its owner leaves. -/
theorem lineSetup_accepted {s : State} (hlow : s.host.resetLow = false) (hdue : requestDue .line 0x01 s = true)
    (h : s.lineRequest.inRange = true) : exec .lineSetup s =
      .next (answer .line 0x01 (acceptedWith s.lineRequest.clamps)
        (commit (lineTaken s) (handCutoff s.line.params (handGateDelay s.line.params (lineMerged s))))) := by
  refine (line_intake hlow hdue).trans ?_
  rw [lineSetupOwner_eq, if_pos h]

/-- A refused LINE SETUP is answered and does nothing else (R11). -/
theorem lineSetup_refused {s : State} (hlow : s.host.resetLow = false) (hdue : requestDue .line 0x01 s = true)
    (h : s.lineRequest.inRange = false) :
    exec .lineSetup s = .next (answer .line 0x01 .refusedRange (lineTaken s)) := by
  refine (line_intake hlow hdue).trans ?_
  rw [lineSetupOwner_eq, if_neg (by simp [h]), commit_eq_self rfl fun _ => rfl]

/-- The line reference after an accepted LINE SETUP, for a cutoff that stays and for one that changes (R11, R12). -/
theorem lineSetup_line (s : State) :
    let t := handCutoff s.line.params (handGateDelay s.line.params (lineMerged s))
    let merged := { s.line with params := s.lineRequest.merge s.line.params }
    (merged.params.cutoff = s.line.params.cutoff →
      t = handGateDelay s.line.params (lineMerged s) ∧ t.line = merged) ∧
    (merged.params.cutoff ≠ s.line.params.cutoff → t.line = (examineThreshold { s with line := merged }).line) ∧
    t.line.params = merged.params := by
  have line : (handGateDelay s.line.params (lineMerged s)).line =
      { s.line with params := s.lineRequest.merge s.line.params } := handGateDelay_line _ _
  unfold handCutoff
  simp only [line]
  refine ⟨fun h => ?_, fun h => ?_, ?_⟩
  · rw [if_pos h]
    exact ⟨rfl, line⟩
  · rw [if_neg h]
    exact examineThreshold_line_congr line
  · split
    · rw [line]
    · rw [examineThreshold_params, line]

/-- The line reference in the answer to an accepted LINE SETUP is the one that its owner leaves. -/
theorem answered_line (kind : Nat) (r : Result) (b w : State) : (answer .line kind r (commit b w)).line = w.line :=
  (answer_keeps .line kind r _).1.trans (commit_keeps b w).line

/-- A LINE SETUP that changes no cutoff has no rewrite event, so that the end of the event does nothing. -/
theorem lineSetup_commit (s : State) : commit (lineTaken s) (handGateDelay s.line.params (lineMerged s)) =
    handGateDelay s.line.params (lineMerged s) := by
  rcases handGateDelay_cases s.line.params (lineMerged s) with ⟨_, h⟩ | ⟨_, h⟩ <;> rw [h]
  · exact commit_eq_self rfl fun _ => rfl
  · exact commit_eq_self rfl fun _ => rfl

/-- Settles O29: refused whole, or merged with the two hand-overs of R12. -/
theorem lineSetupIsJudgedAndMerged : Obligations.LineSetupIsJudgedAndMerged := by
  intro s hlow hdue
  cases hrange : s.lineRequest.inRange with
  | false =>
    refine ⟨_, lineSetup_refused hlow hdue hrange, ?_⟩
    have bad := (lineRequest_not_inRange s.lineRequest).mp hrange
    exact ⟨fun _ => ⟨line_answered _ _ _, answer_sameOutside _ _ _ rfl⟩, fun good => absurd bad good⟩
  | true =>
    refine ⟨_, lineSetup_accepted hlow hdue hrange, ?_⟩
    have good := mt (lineRequest_not_inRange s.lineRequest).mpr (by simp [hrange])
    obtain ⟨kept, _, params⟩ := lineSetup_line s
    refine ⟨fun bad => absurd bad good, fun _ => ⟨fun clamped => ?_, fun unclamped => ?_, ?_, fun hsame => ?_⟩⟩
    · rw [answer_header, (lineRequest_clamps _).mpr clamped]
      rfl
    · rw [answer_header, Bool.eq_false_iff.mpr (mt (lineRequest_clamps _).mp unclamped)]
      rfl
    · rw [answered_line, params]
      exact lineRequest_merge _ _
    · rw [answered_line, params] at hsame
      rw [(kept hsame).1, lineSetup_commit]
      rcases handGateDelay_cases s.line.params (lineMerged s) with ⟨hg, h⟩ | ⟨hg, h⟩ <;> rw [h]
      · exact ⟨rfl, rfl, rfl, fun _ => rfl, rfl, fun _ => rfl, fun changed => absurd hg changed,
          answer_sameOutside _ _ _ rfl⟩
      · exact ⟨rfl, rfl, rfl, fun _ => rfl, rfl, fun same => absurd same hg, fun _ => ⟨rfl, emptyQueue_output⟩,
          answer_sameOutside _ _ _ rfl⟩

end Sys2Proof.Machine
end

section
/-!
PROOFS, chapter 1: a step of the line count and its consequences (R1, R9, R57, R126, R136, R145).
-/
namespace Sys2Proof.Machine

/-! ### Operations that each change their own stand -/

/-- An operation over the stands, each part of which changes its own stand by one function of the line reference, changes
every stand by that function. -/
theorem forStands_stand {f : StandNo → State → State} {g : LineRef → Stand → Stand}
    (line : ∀ i s, (f i s).line = s.line)
    (stand : ∀ i j s, (f i s).stand j = if j = i then g s.line (s.stand i) else s.stand j) (s : State) (j : StandNo) :
    (forStands f s).stand j = g s.line (s.stand j) := by
  have main (is : List StandNo) (nodup : is.Nodup) (s : State) :
      (is.foldl (fun s i => f i s) s).stand j = if j ∈ is then g s.line (s.stand j) else s.stand j := by
    induction is generalizing s with
    | nil => simp
    | cons i rest ih =>
      obtain ⟨hi, hrest⟩ := List.nodup_cons.mp nodup
      rw [List.foldl_cons, ih hrest, line, stand]
      by_cases hj : j = i
      · simp [hj, hi]
      · simp [hj]
  exact (main standNumbers (by decide) s).trans (if_pos (mem_standNumbers j))

/-! ### The stall check and the knife check at one stand -/

/-- The stand's spindle is stalled at a line count, in a measuring state (R57). -/
def Stand.stallDue (c : Word) (d : Stand) : Bool := d.seq.phase.isMeasuring && d.spindle.stalled c

/-- A stand whose spindle has been lost to a stall (R57). -/
def Stand.stallLost (d : Stand) : Stand := { d with spindle := { d.spindle with validity := .lost, ref := none } }

/-- What the stall check makes of a stand (R57). -/
def Stand.stallChecked (l : LineRef) (d : Stand) : Stand := if d.stallDue l.lineCount then d.stallLost else d

/-- The knife of the stand waits in CUTTING, and its distance is reached (R126). -/
def Stand.knifeDue (c : Word) (d : Stand) : Bool :=
  d.seq.phase == .cutting && d.paste.knife == .wait &&
    d.seq.attempt.nipCount.any fun n => atOrAfter c (n + BitVec.ofNat 32 d.setup.knifeDelay)

/-- A stand whose knife has been started (R128). -/
def Stand.knifeStarted (clock : Word) (d : Stand) : Stand :=
  Stand.zeroAtKnife
    { d with
      paste := { d.paste with knife := .active, knifeEnd := some (clock + BitVec.ofNat 32 d.setup.knifeWidth) }
      seq := { d.seq with attempt := { d.seq.attempt with knifeLate := none } } }

/-- What the knife check makes of a stand (R126, R128). -/
def Stand.knifeChecked (l : LineRef) (d : Stand) : Stand :=
  if d.knifeDue l.lineCount then d.knifeStarted l.usClock else d

theorem stallCheck_eq (i : StandNo) (s : State) : stallCheck i s =
    if (s.stand i).stallDue s.line.lineCount then raise .diameterLost (s.modStand i Stand.stallLost) else s := by
  simp only [stallCheck, Stand.stallDue, Bool.and_eq_true]
  rfl

theorem checkKnife_eq (i : StandNo) (s : State) : checkKnife i s =
    if (s.stand i).knifeDue s.line.lineCount then s.modStand i (Stand.knifeStarted s.line.usClock) else s := by
  have distance : knifeDistance s i = (s.stand i).seq.attempt.nipCount.any fun n =>
      atOrAfter s.line.lineCount (n + BitVec.ofNat 32 (s.stand i).setup.knifeDelay) := by
    unfold knifeDistance
    dsimp only
    split
    · next h => rw [h]; rfl
    · next h => rw [h]; rfl
  simp only [checkKnife, distance, Stand.knifeDue, Bool.and_eq_true, beq_iff_eq, and_assoc]
  rfl

theorem stallCheck_stand (i j : StandNo) (s : State) :
    (stallCheck i s).stand j = if j = i then (s.stand i).stallChecked s.line else s.stand j := by
  rw [stallCheck_eq, Stand.stallChecked]
  split
  · rw [raise_stand, State.modStand_stand]
  · split
    · next hj => rw [hj]
    · rfl

theorem checkKnife_stand (i j : StandNo) (s : State) :
    (checkKnife i s).stand j = if j = i then (s.stand i).knifeChecked s.line else s.stand j := by
  rw [checkKnife_eq, Stand.knifeChecked]
  split
  · rw [State.modStand_stand]
  · split
    · next hj => rw [hj]
    · rfl

theorem stallCheck_standEvent (i : StandNo) (s : State) : StandEventFrame s (stallCheck i s) := by
  rcases stallCheck_cases i s with h | ⟨_, _, h⟩ <;> rw [h]
  · exact .refl s
  · exact (StandEventFrame.modStand i _ s).trans (raise_frame _ _).standEvent

theorem checkKnife_standEvent (i : StandNo) (s : State) : StandEventFrame s (checkKnife i s) := by
  rcases checkKnife_cases i s with h | ⟨_, _, _, h⟩ <;> rw [h]
  · exact .refl s
  · exact .modStand i _ s

/-- An operation over the stands whose parts have the frame of a stand's event has it. -/
theorem forStands_standEvent {f : StandNo → State → State} (hf : ∀ i s, StandEventFrame s (f i s)) (s : State) :
    StandEventFrame s (forStands f s) :=
  forStands_induct (P := StandEventFrame s) (fun i t h => h.trans (hf i t)) (.refl s)

theorem forStands_tracker {f : StandNo → State → State} (hf : ∀ i s, (f i s).tracker = s.tracker) (s : State) :
    (forStands f s).tracker = s.tracker :=
  forStands_induct (P := fun t => t.tracker = s.tracker) (fun i t h => (hf i t).trans h) rfl

theorem forStands_arbiter {f : StandNo → State → State} (hf : ∀ i s, (f i s).arbiter = s.arbiter) (s : State) :
    (forStands f s).arbiter = s.arbiter :=
  forStands_induct (P := fun t => t.arbiter = s.arbiter) (fun i t h => (hf i t).trans h) rfl

theorem forStands_records {f : StandNo → State → State} (hf : ∀ i s, (f i s).records = s.records) (s : State) :
    (forStands f s).records = s.records :=
  forStands_induct (P := fun t => t.records = s.records) (fun i t h => (hf i t).trans h) rfl

theorem forStands_agree {f : StandNo → State → State} (hf : ∀ i s, RecordAgree s (f i s)) (s : State) :
    RecordAgree s (forStands f s) :=
  forStands_induct (P := RecordAgree s) (fun i t h => h.trans (hf i t)) ⟨rfl, rfl, fun _ => rfl, fun _ => rfl⟩

/-- What the stall check and the knife check share: they change one stand's own values and a notice. -/
structure OwnStandOnly (s t : State) : Prop where
  arbiter : t.arbiter = s.arbiter
  tracker : t.tracker = s.tracker
  records : t.records = s.records
  agree   : RecordAgree s t

theorem OwnStandOnly.modStand (i : StandNo) {f : Stand → Stand} (hr : ∀ d, (f d).records = d.records)
    (hu : ∀ d, (f d).updateCount = d.updateCount) (s : State) : OwnStandOnly s (s.modStand i f) := by
  refine ⟨rfl, rfl, rfl, rfl, rfl, fun j => ?_, fun j => ?_⟩ <;> rw [State.modStand_stand] <;> split
  · next h => rw [hr, h]
  · rfl
  · next h => rw [hu, h]
  · rfl

theorem stallCheck_own (i : StandNo) (s : State) : OwnStandOnly s (stallCheck i s) := by
  have own : OwnStandOnly s (s.modStand i Stand.stallLost) := .modStand i (fun _ => by rfl) (fun _ => by rfl) s
  rw [stallCheck_eq]
  split
  · exact ⟨own.arbiter, own.tracker, own.records, own.agree.mem, own.agree.init, own.agree.records,
      own.agree.updateCount⟩
  · exact ⟨rfl, rfl, rfl, rfl, rfl, fun _ => rfl, fun _ => rfl⟩

theorem checkKnife_own (i : StandNo) (s : State) : OwnStandOnly s (checkKnife i s) := by
  rw [checkKnife_eq]
  split
  · exact .modStand i (fun _ => by rfl) (fun _ => by rfl) s
  · exact ⟨rfl, rfl, rfl, rfl, rfl, fun _ => rfl, fun _ => rfl⟩

/-! ### Everything that follows the threshold -/

@[simp] theorem ageLastNip_line (forward : Bool) (s : State) : (ageLastNip forward s).line = s.line := rfl
@[simp] theorem ageLastNip_tracker (forward : Bool) (s : State) : (ageLastNip forward s).tracker = s.tracker := rfl
@[simp] theorem ageLastNip_records (forward : Bool) (s : State) : (ageLastNip forward s).records = s.records := rfl
@[simp] theorem ageLastNip_host (forward : Bool) (s : State) : (ageLastNip forward s).host = s.host := rfl
@[simp] theorem ageLastNip_stand (forward : Bool) (s : State) (j : StandNo) :
    (ageLastNip forward s).stand j = s.stand j := rfl

theorem ageLastNip_agree (forward : Bool) (s : State) : RecordAgree s (ageLastNip forward s) :=
  ⟨rfl, rfl, fun _ => rfl, fun _ => rfl⟩

/-- The last nip's aging reads the arbiter and the line count alone (R136). -/
theorem ageLastNip_arbiter_congr (forward : Bool) {s t : State} (ha : t.arbiter = s.arbiter) (hl : t.line = s.line) :
    (ageLastNip forward t).arbiter = (ageLastNip forward s).arbiter := by
  simp only [ageLastNip, State.modArbiter_arbiter, ha, hl]

theorem setEntries_agree (es : List TrackEntry) (s : State) : RecordAgree s (setEntries es s) :=
  ⟨rfl, rfl, fun _ => rfl, fun _ => rfl⟩

/-- The consequences of a change of the line count after the synthetic threshold (log entry 10). -/
def consequences (forward : Bool) (u : State) : State :=
  forStands checkKnife (ageEntries (ageLastNip forward (forStands stallCheck u)))

/-- The aging check retires the aged entries from the state without them (R145). -/
theorem ageEntries_eq (s : State) : ageEntries s =
    retireLost (s.tracker.entries.filter fun e => e.aged s.line.lineCount)
      (setEntries (s.tracker.entries.filter fun e => !e.aged s.line.lineCount) s) := rfl

theorem ageEntries_standEvent (s : State) : StandEventFrame s (ageEntries s) :=
  (setEntries_standEvent _ s).trans (retireLost_frame _ _).standEvent

theorem ageLastNip_standEvent (forward : Bool) (s : State) : StandEventFrame s (ageLastNip forward s) :=
  .modArbiter _ s

theorem consequences_standEvent (forward : Bool) (u : State) : StandEventFrame u (consequences forward u) :=
  (forStands_standEvent stallCheck_standEvent u).trans <| (ageLastNip_standEvent forward _).trans <|
    (ageEntries_standEvent _).trans (forStands_standEvent checkKnife_standEvent _)

theorem stallsChecked_line (u : State) : (forStands stallCheck u).line = u.line :=
  (forStands_standEvent stallCheck_standEvent u).line

theorem stallsChecked_tracker (u : State) : (forStands stallCheck u).tracker = u.tracker :=
  forStands_tracker (fun i s => (stallCheck_own i s).tracker) u

/-- The tracker loses the aged entries and nothing else (R145). -/
theorem consequences_tracker (forward : Bool) (u : State) : (consequences forward u).tracker =
    { u.tracker with entries := u.tracker.entries.filter fun e => !e.aged u.line.lineCount } := by
  rw [consequences, forStands_tracker fun i s => (checkKnife_own i s).tracker, ageEntries_eq,
    (retireLost_frame _ _).tracker, setEntries, State.modTracker_tracker, ageLastNip_line, ageLastNip_tracker,
    stallsChecked_line, stallsChecked_tracker]

/-- The arbiter ages its last nip and nothing else (R136). -/
theorem consequences_arbiter (forward : Bool) (u : State) :
    (consequences forward u).arbiter = (ageLastNip forward u).arbiter := by
  rw [consequences, forStands_arbiter fun i s => (checkKnife_own i s).arbiter, ageEntries_eq,
    (retireLost_frame _ _).arbiter, setEntries, State.modTracker_arbiter]
  exact ageLastNip_arbiter_congr forward (forStands_arbiter (fun i s => (stallCheck_own i s).arbiter) u)
    (stallsChecked_line u)

theorem consequences_records (forward : Bool) (u : State) : (consequences forward u).records = u.records := by
  rw [consequences, forStands_records fun i s => (checkKnife_own i s).records, ageEntries_eq, retireLost_records,
    setEntries, State.modTracker_records, ageLastNip_records,
    forStands_records fun i s => (stallCheck_own i s).records]

/-- The records and the table are those of the aged entries' retirement (R145, R174). -/
theorem consequences_agree (forward : Bool) (u : State) :
    RecordAgree (retireLost (u.tracker.entries.filter fun e => e.aged u.line.lineCount) u)
      (consequences forward u) := by
  have stalls : RecordAgree u (forStands stallCheck u) := forStands_agree (fun i s => (stallCheck_own i s).agree) u
  have before (es : List TrackEntry) := (stalls.trans (ageLastNip_agree forward _)).trans (setEntries_agree es _)
  rw [consequences, ageEntries_eq, ageLastNip_line, ageLastNip_tracker, stallsChecked_line, stallsChecked_tracker]
  exact ((before _).retireLost _).trans (forStands_agree (fun i s => (checkKnife_own i s).agree) _)

/-! ### The stands -/

/-- What a step of the line count makes of a stand, beside its records (R57, R126). -/
def Stand.stepped (l : LineRef) (d : Stand) : Stand := (d.stallChecked l).knifeChecked l

theorem stallChecked_records (l : LineRef) (d : Stand) (r : StandRecords) (n : Word) :
    ({ d with records := r, updateCount := n } : Stand).stallChecked l =
      { d.stallChecked l with records := r, updateCount := n } := by
  change (if d.stallDue l.lineCount then _ else _) = _
  unfold Stand.stallChecked
  split <;> rfl

theorem knifeChecked_records (l : LineRef) (d : Stand) (r : StandRecords) (n : Word) :
    ({ d with records := r, updateCount := n } : Stand).knifeChecked l =
      { d.knifeChecked l with records := r, updateCount := n } := by
  change (if d.knifeDue l.lineCount then _ else _) = _
  unfold Stand.knifeChecked
  split <;> rfl

/-- A stand after the consequences: its checks, and its records. -/
theorem consequences_stand (forward : Bool) (u : State) (i : StandNo) : (consequences forward u).stand i =
    { (u.stand i).stepped u.line with
      records := ((consequences forward u).stand i).records
      updateCount := ((consequences forward u).stand i).updateCount } := by
  generalize hx : ageEntries (ageLastNip forward (forStands stallCheck u)) = x
  have line : x.line = u.line := by
    rw [← hx, (ageEntries_standEvent _).line, ageLastNip_line, stallsChecked_line]
  have aged : x.stand i = { (u.stand i).stallChecked u.line with
      records := (x.stand i).records, updateCount := (x.stand i).updateCount } := by
    rw [← hx, ageEntries_eq, (retireLost_frame _ _).stand i, setEntries, State.modTracker_stand, ageLastNip_stand,
      forStands_stand (fun i s => (stallCheck_standEvent i s).line) stallCheck_stand u i]
  have knives : (consequences forward u).stand i = (x.stand i).knifeChecked u.line := by
    rw [consequences, hx, ← line]
    exact forStands_stand (fun i s => (checkKnife_standEvent i s).line) checkKnife_stand x i
  rw [knives, aged, knifeChecked_records]
  rfl

theorem stallDue_valid {c : Word} {d : Stand} (h : d.stallDue c = true) : d.spindle.validity = .valid := by
  simp only [Stand.stallDue, SpindleSide.stalled, Bool.and_eq_true, beq_iff_eq] at h
  exact h.2.1

/-- The stall checks leave the state, or they have raised DIAMETER_LOST (R57). -/
theorem stallsChecked_notice (u : State) :
    forStands stallCheck u = u ∨ (forStands stallCheck u).host.notice.getLsbD 14 = true := by
  refine forStands_induct (P := fun t => t = u ∨ t.host.notice.getLsbD 14 = true) (fun j t h => ?_) (.inl rfl)
  rw [stallCheck_eq]
  split
  · rw [raise_notice_getLsbD _ _ (by omega)]
    exact .inr (by simp [noticeBit])
  · exact h

/-- A stalled spindle raises DIAMETER_LOST (R57). -/
theorem consequences_notice (forward : Bool) {u : State} {i : StandNo}
    (h : (u.stand i).stallDue u.line.lineCount = true) : (consequences forward u).host.notice.getLsbD 14 = true := by
  have lost : (forStands stallCheck u).stand i = (u.stand i).stallLost := by
    rw [forStands_stand (fun i s => (stallCheck_standEvent i s).line) stallCheck_stand, Stand.stallChecked, if_pos h]
  have raised : (forStands stallCheck u).host.notice.getLsbD 14 = true := by
    refine (stallsChecked_notice u).resolve_left fun same => ?_
    have validity := congrArg (fun d => d.spindle.validity) (same ▸ lost)
    rw [stallDue_valid h] at validity
    cases validity
  have knives (s : State) : (forStands checkKnife s).host = s.host :=
    forStands_induct (P := fun t => t.host = s.host) (fun j t ht => by
      rw [checkKnife_eq]
      split
      · exact ht
      · exact ht) rfl
  rw [consequences, knives, ageEntries_eq, retireLost_quiet _ _ 14 (by omega) (by omega), setEntries,
    State.modTracker_host, ageLastNip_host, raised]

/-! ### The step -/

/-- The line reference after a step of the line count (R1). -/
def LineRef.counted (a b forward : Bool) (l : LineRef) : LineRef :=
  { l with refA := a, refB := b, lineCount := if forward then l.lineCount + 1 else l.lineCount - 1 }

/-- The state after the count and the threshold, before the other consequences (R1, R9; log entry 10). -/
def thresholdExamined (a b forward : Bool) (s : State) : State :=
  examineThreshold { s with line := s.line.counted a b forward }

/-- A transition of one place forward or backward is a step of the line count (R1). -/
theorem quadratureEvent_of_step {a b forward : Bool} {s : State}
    (h : quadraturePlace a b = (quadraturePlace s.line.refA s.line.refB + (if forward then 1 else 3)) % 4) :
    (a != s.line.refA || b != s.line.refB) = true ∧
      quadratureEvent a b s = consequences forward (thresholdExamined a b forward s) := by
  have moves := movement_of_places s.line.refA s.line.refB a b
  unfold quadratureEvent
  cases forward with
  | true =>
    obtain ⟨due, moved⟩ := moves.1 h
    rw [moved]
    exact ⟨due, rfl⟩
  | false =>
    obtain ⟨due, moved⟩ := moves.2.2 h
    rw [moved]
    exact ⟨due, rfl⟩

theorem step_exec {a b forward : Bool} {s : State} (hlow : s.host.resetLow = false)
    (h : quadraturePlace a b = (quadraturePlace s.line.refA s.line.refB + (if forward then 1 else 3)) % 4) :
    exec (.quadratureTransition a b) s =
      .next (commit s (consequences forward (thresholdExamined a b forward s))) := by
  obtain ⟨due, event⟩ := quadratureEvent_of_step h
  exact (takesPlace_pos hlow due).trans (by rw [event])

end Sys2Proof.Machine
end

section
/-!
PROOFS, chapter 1: synthetic boundaries (R8 to R10).
-/
namespace Sys2Proof.Machine

@[simp] theorem raiseCutNotice_stand (run : Nat) (s : State) (j : StandNo) :
    (raiseCutNotice run s).stand j = s.stand j := by
  unfold raiseCutNotice
  split
  · rfl
  · split <;> rfl

/-- The line reference after a synthetic boundary, within the run count's limit (R8, R10). -/
theorem syntheticBoundary_eq {l : LineRef} (cb : Word) (h : l.syntheticRun ≤ 65535) : l.syntheticBoundary cb = { l with
    copyNumber := l.copyNumber + 1, boundaryRef := some cb, lastKind := some .synthetic
    syntheticRun := min (l.syntheticRun + 1) 65535
    cutStatus := if min (l.syntheticRun + 1) 65535 ≤ 8 then .synthetic else .fault } := by
  rw [LineRef.syntheticBoundary, satInc_eq_min (limit := max16) h]
  rfl

/-- The tracker and the records at a synthetic boundary are those of the tracker's work with the new line reference (R9). -/
theorem makeSynthetic_tracked (cb : Word) (s : State) :
    let t := makeSynthetic cb s
    let w := trackBoundary cb (s.line.copyNumber + 1) { s with line := t.line }
    t.tracker = w.tracker ∧ t.mem = w.mem ∧ ∀ i : StandNo, t.stand i = w.stand i := by
  have line : (makeSynthetic cb s).line = s.line.syntheticBoundary cb := makeSynthetic_line cb s
  have copy : (syntheticNoticed cb s).line.copyNumber = s.line.copyNumber + 1 := by rw [syntheticNoticed_line]; rfl
  obtain ⟨tracker, agree⟩ := trackBoundary_congr (s := { s with line := s.line.syntheticBoundary cb })
    (t := syntheticNoticed cb s) (raiseCutNotice_agree _ _) (syntheticNoticed_line cb s) (raiseCutNotice_tracker _ _)
    cb (s.line.copyNumber + 1)
  have noticed := trackBoundary_frame cb (s.line.copyNumber + 1) (syntheticNoticed cb s)
  have plain := trackBoundary_frame cb (s.line.copyNumber + 1) { s with line := s.line.syntheticBoundary cb }
  dsimp only
  rw [line, makeSynthetic_eq, handBoundary, touchLine_tracker, touchLine_mem, copy]
  refine ⟨tracker, agree.mem, fun i => ?_⟩
  have start : (syntheticNoticed cb s).stand i = s.stand i := raiseCutNotice_stand _ _ i
  rw [touchLine_stand, noticed.stand i, plain.stand i, agree.records, agree.updateCount, start]
  rfl

/-- The notices 7 and 8 at a synthetic boundary (R10). -/
theorem makeSynthetic_notice (cb : Word) (s : State) {k : Nat} (h7 : 7 ≤ k) (h16 : k < 16) :
    (makeSynthetic cb s).host.notice.getLsbD k = (s.host.notice.getLsbD k ||
      decide (satInc max16 s.line.syntheticRun = 1 ∧ k = 7 ∨ satInc max16 s.line.syntheticRun = 9 ∧ k = 8)) := by
  rw [makeSynthetic_eq, handBoundary, touchLine_host]
  refine (trackBoundary_quiet _ _ _ k h7 h16).trans ?_
  exact raiseCutNotice_notice _ _ (by omega)

/-- A synthetic boundary has one rewrite event of the line status block (R8, R13). -/
theorem makeSynthetic_lineUpdates (cb : Word) (s : State) :
    (makeSynthetic cb s).host.lineUpdates = s.host.lineUpdates + rewritten s 1 := by
  have lineUpdates : (syntheticNoticed cb s).host.lineUpdates = s.host.lineUpdates := by
    unfold syntheticNoticed raiseCutNotice
    split
    · rfl
    · split <;> rfl
  have init : (syntheticNoticed cb s).host.init = s.host.init := (raiseCutNotice_agree _ _).init
  rw [makeSynthetic_eq, handBoundary_lineUpdates, lineUpdates, rewritten_congr init]

/-- The cut status at a run count of 9 or more is FAULT, so that the gate diverts (R10, R152). -/
theorem makeSynthetic_output {cb : Word} {s : State} (h : 9 ≤ satInc max16 s.line.syntheticRun) :
    (makeSynthetic cb s).tracker.output = .divert := by
  have status : (syntheticNoticed cb s).line.cutStatus = .fault := by
    rw [syntheticNoticed_line]
    exact if_neg (show ¬ satInc max16 s.line.syntheticRun ≤ 8 by omega)
  rw [makeSynthetic_eq, handBoundary, touchLine_tracker, trackBoundary_output_of_fault status]

/-- Everything that one synthetic boundary does (R8 to R10, R13). -/
theorem makeSynthetic_spec {s : State} (cb : Word) (h : s.line.syntheticRun ≤ 65535) :
    let t := makeSynthetic cb s
    let run := min (s.line.syntheticRun + 1) 65535
    t.line = { s.line with
      copyNumber := s.line.copyNumber + 1, boundaryRef := some cb, lastKind := some .synthetic, syntheticRun := run
      cutStatus := if run ≤ 8 then .synthetic else .fault } ∧
    t.tracker.lastStatus = t.line.cutStatus ∧ (9 ≤ run → t.tracker.output = .divert) ∧
    (run = 1 → t.host.notice.getLsbD 7 = true) ∧ (run = 9 → t.host.notice.getLsbD 8 = true) ∧
    (run ≠ 1 → t.host.notice.getLsbD 7 = s.host.notice.getLsbD 7) ∧
    (run ≠ 9 → t.host.notice.getLsbD 8 = s.host.notice.getLsbD 8) := by
  have hrun : satInc max16 s.line.syntheticRun = min (s.line.syntheticRun + 1) 65535 := satInc_eq_min h
  have notice7 := makeSynthetic_notice cb s (k := 7) (by omega) (by omega)
  have notice8 := makeSynthetic_notice cb s (k := 8) (by omega) (by omega)
  have line : (makeSynthetic cb s).line = _ := (makeSynthetic_line cb s).trans (syntheticBoundary_eq cb h)
  rw [hrun] at notice7 notice8
  refine ⟨line, ?_, fun h9 => makeSynthetic_output (hrun ▸ h9), fun h1 => ?_, fun h9 => ?_, fun h1 => ?_, fun h9 => ?_⟩
  · rw [makeSynthetic_line, makeSynthetic_eq, handBoundary_lastStatus, syntheticNoticed_line]
  · rw [notice7]
    simp [h1]
  · rw [notice8]
    simp [h9]
  · rw [notice7]
    simp [h1]
  · rw [notice8]
    simp [h9]

/-- Settles O28: the examination as a loop over `makeSynthetic`, and the two places that make one. -/
theorem syntheticBoundaries : Obligations.SyntheticBoundaries := by
  refine ⟨fun s => ⟨examineThreshold_of_none, fun ref hr => ⟨examineThreshold_of_before hr,
    fun hlo hhi h => (examineThreshold_of_due hr hlo hhi h).1⟩⟩, fun s hlo hhi ref => examineThreshold_ends hlo hhi,
    fun s cb hrun => ?_, fun a b forward s hlow hplace => ?_, fun s hlow hdue => ?_⟩
  · obtain ⟨line, status, output, lost, fault, noLost, noFault⟩ := makeSynthetic_spec cb hrun
    obtain ⟨tracker, mem, stand⟩ := makeSynthetic_tracked cb s
    have frame := makeSynthetic_frame cb s
    refine ⟨line, status, output, lost, fault, noLost, noFault, tracker, mem, stand, frame.arbiter, frame.records, ?_⟩
    exact makeSynthetic_lineUpdates cb s
  · refine ⟨_, step_exec hlow hplace, ?_⟩
    have frame := consequences_standEvent forward (thresholdExamined a b forward s)
    have keeps := commit_keeps s (consequences forward (thresholdExamined a b forward s))
    refine ⟨keeps.line.trans frame.line, ?_, ?_⟩
    · rw [keeps.tracker, consequences_tracker]
      rfl
    · rw [keeps.host, frame.lineUpdates]
      rfl
  · cases hrange : s.lineRequest.inRange with
    | false =>
      exact ⟨_, lineSetup_refused hlow hdue hrange, fun _ => rfl, fun changed => absurd rfl changed⟩
    | true =>
      refine ⟨_, lineSetup_accepted hlow hdue hrange, ?_⟩
      obtain ⟨same, changed, params⟩ := lineSetup_line s
      rw [answered_line, params]
      exact ⟨fun h => (same h).2, changed⟩

end Sys2Proof.Machine
end

section
/-!
PROOFS, chapter 1: what a transition of the encoder pair brings about (R1, R57, R126, R136, R145).
-/
namespace Sys2Proof.Machine

/-! ### A stand after a step -/

/-- A spindle is stalled when the line count is past its reference by more than the stall limit (R57). -/
theorem stallDue_iff (c : Word) (d : Stand) : d.stallDue c = true ↔
    d.seq.phase.isMeasuring = true ∧ d.spindle.validity = .valid ∧ ∃ r, d.spindle.ref = some r ∧
      atOrAfter c (r + BitVec.ofNat 32
        (3 * d.spindle.cp.getD (roundDiv (d.spindle.estimate * 31416) 10000) + 1)) = true := by
  simp only [Stand.stallDue, SpindleSide.stalled, Bool.and_eq_true, beq_iff_eq]
  cases d.spindle.ref with
  | none => simp
  | some r => simp [SpindleSide.stallLimit, SpindleSide.expected, circumference]

/-- The knife's distance is reached while it waits in CUTTING (R126). -/
theorem knifeDue_iff (c : Word) (d : Stand) : d.knifeDue c = true ↔
    d.seq.phase = .cutting ∧ d.paste.knife = .wait ∧ ∃ n, d.seq.attempt.nipCount = some n ∧
      atOrAfter c (n + BitVec.ofNat 32 d.setup.knifeDelay) = true := by
  simp [Stand.knifeDue, Option.any_eq_true, and_assoc]

/-- A step reaches the spindle by the stall check, and everything else by the knife check. -/
theorem stepped_eq (l : LineRef) (d : Stand) : d.stepped l = { d.knifeChecked l with
    spindle := if d.stallDue l.lineCount then { d.spindle with validity := .lost, ref := none } else d.spindle } := by
  unfold Stand.stepped Stand.stallChecked
  split
  · change (if d.knifeDue l.lineCount then _ else _) = _
    unfold Stand.knifeChecked
    split <;> rfl
  · unfold Stand.knifeChecked
    split <;> rfl

theorem stepped_spindle (l : LineRef) (d : Stand) : (d.stepped l).spindle =
    if d.stallDue l.lineCount then { d.spindle with validity := .lost, ref := none } else d.spindle := by
  rw [stepped_eq]

theorem stepped_of_knifeDue {l : LineRef} {d : Stand} (h : d.knifeDue l.lineCount = true) :
    (d.stepped l).paste = { d.paste with
      knife := .active, knifeEnd := some (l.usClock + BitVec.ofNat 32 d.setup.knifeWidth) } ∧
    (d.stepped l).seq = { d.seq with attempt := { d.seq.attempt with knifeLate := none } } ∧
    (d.stepped l).speed = { d.speed with ref := 0, frozen := false } ∧
    (d.stepped l).io = { d.io with pendingDuty := 0 } := by
  rw [stepped_eq, Stand.knifeChecked, if_pos h]
  exact ⟨rfl, rfl, rfl, rfl⟩

theorem stepped_of_not_knifeDue {l : LineRef} {d : Stand} (h : ¬ d.knifeDue l.lineCount = true) :
    (d.stepped l).paste = d.paste ∧ (d.stepped l).seq = d.seq ∧ (d.stepped l).speed = d.speed ∧
      (d.stepped l).io = d.io := by
  rw [stepped_eq, Stand.knifeChecked, if_neg h]
  exact ⟨rfl, rfl, rfl, rfl⟩

/-- What a step of the line count leaves at every stand (R1, R57, R126). -/
structure StepKeeps (d e : Stand) : Prop where
  phase   : e.seq.phase = d.seq.phase
  running : e.running = d.running
  ready   : e.ready = d.ready
  setup   : e.setup = d.setup
  staged  : e.staged = d.staged
  tab     : e.tab = d.tab
  inputs  : e.io.inputs = d.io.inputs
  duty    : e.io.duty = d.io.duty
  ref     : e.speed.ref = d.speed.ref ∨ e.speed.ref = 0 ∧ e.paste.knife = .active

theorem stepped_keeps (l : LineRef) (d : Stand) : StepKeeps d (d.stepped l) := by
  rw [stepped_eq]
  unfold Stand.knifeChecked
  split
  · exact ⟨rfl, rfl, rfl, rfl, rfl, rfl, rfl, rfl, .inr ⟨rfl, rfl⟩⟩
  · exact ⟨rfl, rfl, rfl, rfl, rfl, rfl, rfl, rfl, .inl rfl⟩

/-! ### The last nip -/

/-- The band check of R136 in both directions. -/
theorem ageLastNip_arbiter_eq (forward : Bool) (s : State) : (ageLastNip forward s).arbiter = { s.arbiter with
    lastNip :=
      if s.arbiter.lastNipValid = true ∧ forward = false ∧ s.line.lineCount = s.arbiter.lastNip - 1073741825 then
        s.arbiter.lastNip - 1
      else s.arbiter.lastNip
    lastNipValid :=
      s.arbiter.lastNipValid && !(forward && decide (s.line.lineCount = s.arbiter.lastNip + 1073741824)) } := by
  unfold ageLastNip
  rw [State.modArbiter_arbiter]
  generalize s.arbiter = a, s.line.lineCount = c
  obtain ⟨holder, nip, valid, requests, grants, releases⟩ := a
  cases valid with
  | false => simp
  | true =>
    cases forward with
    | true => by_cases hc : c = nip + 1073741824#32 <;> simp [hc]
    | false => by_cases hc : c = nip - 1073741825#32 <;> simp [hc]

/-! ### What every transition leaves -/

/-- What a transition of the pair leaves, legal or not: of the line reference all but the pair, the line count, the fault
counts and the values of a boundary, and the blocks that neither the stands nor the boundaries reach. -/
structure TransitionFrame (a b : Bool) (s t : State) : Prop where
  line : t.line = { s.line with
    refA := a, refB := b, lineCount := t.line.lineCount, illegalTotal := t.line.illegalTotal
    windowCount := t.line.windowCount, encoderFault := t.line.encoderFault, boundaryRef := t.line.boundaryRef
    lastKind := t.line.lastKind, copyNumber := t.line.copyNumber, cutStatus := t.line.cutStatus
    syntheticRun := t.line.syntheticRun }
  safe    : t.safe = s.safe
  phases  : t.phases = s.phases
  free    : t.free = s.free
  pending : t.pending = s.pending
  host    : t.host = { s.host with notice := t.host.notice, lineUpdates := t.host.lineUpdates }
  outside : sameOutside eventBytes s t

/-- The end of an event adds nothing to what a transition reaches. -/
theorem TransitionFrame.of_commit {a b : Bool} {s u : State} (v : State)
    (line : u.line = { s.line with
      refA := a, refB := b, lineCount := u.line.lineCount, illegalTotal := u.line.illegalTotal
      windowCount := u.line.windowCount, encoderFault := u.line.encoderFault, boundaryRef := u.line.boundaryRef
      lastKind := u.line.lastKind, copyNumber := u.line.copyNumber, cutStatus := u.line.cutStatus
      syntheticRun := u.line.syntheticRun })
    (safe : u.safe = s.safe) (phases : u.phases = s.phases) (free : u.free = s.free) (pending : u.pending = s.pending)
    (host : u.host = { s.host with notice := u.host.notice, lineUpdates := u.host.lineUpdates })
    (read : ∀ x, ¬ (0x0B40 ≤ x ∧ x < 0x1340) → u.mem.read x = s.mem.read x) :
    TransitionFrame a b s (commit v u) := by
  have keeps := commit_keeps v u
  refine ⟨?_, keeps.safe.trans safe, keeps.phases.trans phases, keeps.free.trans free, keeps.pending.trans pending, ?_,
    commit_sameOutside v read⟩
  · rw [keeps.line]
    exact line
  · rw [keeps.host]
    exact host

/-- What the threshold's examination leaves of the counted line reference (R9). -/
theorem thresholdExamined_line (a b forward : Bool) (s : State) :
    (thresholdExamined a b forward s).line = { s.line.counted a b forward with
      boundaryRef := (thresholdExamined a b forward s).line.boundaryRef
      lastKind := (thresholdExamined a b forward s).line.lastKind
      copyNumber := (thresholdExamined a b forward s).line.copyNumber
      cutStatus := (thresholdExamined a b forward s).line.cutStatus
      syntheticRun := (thresholdExamined a b forward s).line.syntheticRun } :=
  (examineThreshold_examined { s with line := s.line.counted a b forward }).line

/-- The boundaries of the threshold reach what `HandedFrame` lets them reach. -/
theorem thresholdExamined_handed (a b forward : Bool) (s : State) :
    HandedFrame (s.modLine fun _ => (thresholdExamined a b forward s).line) (thresholdExamined a b forward s) :=
  (examineThreshold_examined { s with line := s.line.counted a b forward }).handed

/-- The state after a step of the line count (R1; log entry 10). -/
def lineStepped (a b forward : Bool) (s : State) : State :=
  commit s (consequences forward (thresholdExamined a b forward s))

theorem lineStepped_keeps (a b forward : Bool) (s : State) :
    CommitKeeps (consequences forward (thresholdExamined a b forward s)) (lineStepped a b forward s) := commit_keeps s _

theorem step_frame (a b forward : Bool) (s : State) :
    TransitionFrame a b s (lineStepped a b forward s) := by
  have frame := consequences_standEvent forward (thresholdExamined a b forward s)
  have handed := thresholdExamined_handed a b forward s
  refine .of_commit s ?_ (frame.safe.trans handed.safe) (frame.phases.trans handed.phases)
    (frame.free.trans handed.free) (frame.pending.trans handed.pending) ?_
    (fun x hx => (frame.read x hx).trans (handed.read x hx))
  · have examined := thresholdExamined_line a b forward s
    rw [frame.line]
    generalize (thresholdExamined a b forward s).line = l at examined ⊢
    rw [examined]
    rfl
  · have start : (thresholdExamined a b forward s).host = { s.host with
        notice := (thresholdExamined a b forward s).host.notice
        lineUpdates := (thresholdExamined a b forward s).host.lineUpdates } := handed.host
    rw [frame.host, start]

theorem illegal_frame (a b : Bool) (s : State) : TransitionFrame a b s (illegalCounted a b s) ∧
    TransitionFrame a b s (commit s (forStands lineFaultConsequence (raiseEncoderFault (illegalCounted a b s)))) := by
  refine ⟨⟨rfl, rfl, rfl, rfl, rfl, rfl, fun _ _ => rfl⟩, ?_⟩
  have frame := forStands_attemptFrame lineFaultConsequence_attemptFrame (raiseEncoderFault (illegalCounted a b s))
  generalize forStands lineFaultConsequence (raiseEncoderFault (illegalCounted a b s)) = x at frame ⊢
  refine .of_commit s ?_ frame.safe frame.phases frame.free frame.pending ?_ frame.read
  · rw [frame.line]
    rfl
  · rw [frame.host]
    rfl

/-- A stand after a step of the line count: the two checks, its records, and its counts of rewrites. -/
theorem step_stand (a b forward : Bool) (s : State) (i : StandNo) : (lineStepped a b forward s).stand i =
    { (s.stand i).stepped (thresholdExamined a b forward s).line with
      records := ((lineStepped a b forward s).stand i).records
      updateCount := ((lineStepped a b forward s).stand i).updateCount
      imageCount := ((lineStepped a b forward s).stand i).imageCount } := by
  have keeps := lineStepped_keeps a b forward s
  have natural : ((thresholdExamined a b forward s).stand i).stepped (thresholdExamined a b forward s).line =
      { (s.stand i).stepped (thresholdExamined a b forward s).line with
        records := ((thresholdExamined a b forward s).stand i).records
        updateCount := ((thresholdExamined a b forward s).stand i).updateCount } := by
    have handed := (thresholdExamined_handed a b forward s).stand i
    rw [handed, Stand.stepped, stallChecked_records, knifeChecked_records]
    rfl
  have checked := consequences_stand forward (thresholdExamined a b forward s) i
  rw [natural] at checked
  exact stand_records_counts checked (keeps.stand i)

/-! ### The parts of a step -/

section
variable (a b forward : Bool) (s : State)

theorem step_line : (lineStepped a b forward s).line =
    (thresholdExamined a b forward s).line :=
  (lineStepped_keeps a b forward s).line.trans (consequences_standEvent forward _).line

theorem thresholdExamined_lineCount : (thresholdExamined a b forward s).line.lineCount =
    if forward then s.line.lineCount + 1 else s.line.lineCount - 1 :=
  congrArg LineRef.lineCount (thresholdExamined_line a b forward s)

theorem CommitKeeps.standRecords {s t : State} (h : CommitKeeps s t) (i : StandNo) :
    (t.stand i).records = (s.stand i).records := by
  rw [h.stand i]

/-- A value of a stand that is neither its records nor one of its counts. -/
theorem eq_of_records {α : Type} (g : Stand → α)
    (hg : ∀ (d : Stand) (r : StandRecords) (m n : Word),
      g { d with records := r, updateCount := m, imageCount := n } = g d)
    {d f : Stand} (h : f = { d with records := f.records, updateCount := f.updateCount, imageCount := f.imageCount }) :
    g f = g d := by
  rw [h]
  exact hg _ _ _ _

/-- A step leaves what `StepKeeps` lists at every stand. -/
theorem step_keeps (i : StandNo) : StepKeeps (s.stand i) ((lineStepped a b forward s).stand i) := by
  have kept := stepped_keeps (thresholdExamined a b forward s).line (s.stand i)
  rw [step_stand a b forward s i]
  exact ⟨kept.phase, kept.running, kept.ready, kept.setup, kept.staged, kept.tab, kept.inputs, kept.duty, kept.ref⟩

/-- The spindle side after a step (R57). -/
theorem step_spindle (i : StandNo) :
    ((lineStepped a b forward s).stand i).spindle =
      if (s.stand i).stallDue (if forward then s.line.lineCount + 1 else s.line.lineCount - 1) then
        { (s.stand i).spindle with validity := .lost, ref := none }
      else (s.stand i).spindle := by
  rw [eq_of_records Stand.spindle (fun _ _ _ _ => rfl) (step_stand a b forward s i), stepped_spindle,
    thresholdExamined_lineCount]

/-- The timers, the sequencer, the speed match and the interface of a stand whose knife a step starts (R126, R128). -/
theorem step_cuts {i : StandNo}
    (h : (s.stand i).knifeDue (if forward then s.line.lineCount + 1 else s.line.lineCount - 1) = true) :
    let d := s.stand i
    let e := (lineStepped a b forward s).stand i
    e.paste = { d.paste with
      knife := .active, knifeEnd := some (s.line.usClock + BitVec.ofNat 32 d.setup.knifeWidth) } ∧
    e.seq = { d.seq with attempt := { d.seq.attempt with knifeLate := none } } ∧
    e.speed = { d.speed with ref := 0, frozen := false } ∧ e.io = { d.io with pendingDuty := 0 } := by
  have clock : (thresholdExamined a b forward s).line.usClock = s.line.usClock :=
    (congrArg LineRef.usClock (thresholdExamined_line a b forward s) :)
  have stand := step_stand a b forward s i
  rw [← thresholdExamined_lineCount a b forward s] at h
  obtain ⟨paste, seq, speed, io⟩ := stepped_of_knifeDue h
  rw [clock] at paste
  exact ⟨(eq_of_records Stand.paste (fun _ _ _ _ => rfl) stand).trans paste,
    (eq_of_records Stand.seq (fun _ _ _ _ => rfl) stand).trans seq,
    (eq_of_records Stand.speed (fun _ _ _ _ => rfl) stand).trans speed,
    (eq_of_records Stand.io (fun _ _ _ _ => rfl) stand).trans io⟩

/-- The same values of a stand whose knife a step does not start. -/
theorem step_not_cuts {i : StandNo}
    (h : ¬ (s.stand i).knifeDue (if forward then s.line.lineCount + 1 else s.line.lineCount - 1) = true) :
    let d := s.stand i
    let e := (lineStepped a b forward s).stand i
    e.paste = d.paste ∧ e.seq = d.seq ∧ e.speed = d.speed ∧ e.io = d.io := by
  have stand := step_stand a b forward s i
  rw [← thresholdExamined_lineCount a b forward s] at h
  obtain ⟨paste, seq, speed, io⟩ := stepped_of_not_knifeDue h
  exact ⟨(eq_of_records Stand.paste (fun _ _ _ _ => rfl) stand).trans paste,
    (eq_of_records Stand.seq (fun _ _ _ _ => rfl) stand).trans seq,
    (eq_of_records Stand.speed (fun _ _ _ _ => rfl) stand).trans speed,
    (eq_of_records Stand.io (fun _ _ _ _ => rfl) stand).trans io⟩

/-- The records and the table after a step (R145, R174). -/
theorem step_agree :
    let u := thresholdExamined a b forward s
    let lost := retireLost (u.tracker.entries.filter fun e => e.aged u.line.lineCount) u
    (∀ k, recordBytes k → (lineStepped a b forward s).mem.read k = lost.mem.read k) ∧
      ∀ i, ((lineStepped a b forward s).stand i).records = (lost.stand i).records := by
  intro u lost
  have agree : RecordAgree lost (consequences forward u) := consequences_agree forward u
  refine ⟨fun k hk => ?_, fun i => ?_⟩
  · rw [lineStepped, commit_recordBytes s _ hk, agree.mem]
  · rw [(lineStepped_keeps a b forward s).standRecords i, agree.records i]

/-- The tracker after a step (R145). -/
theorem step_tracker : (lineStepped a b forward s).tracker = { (thresholdExamined a b forward s).tracker with
    entries := (thresholdExamined a b forward s).tracker.entries.filter fun e =>
      !e.aged (if forward then s.line.lineCount + 1 else s.line.lineCount - 1) } := by
  rw [(lineStepped_keeps a b forward s).tracker, consequences_tracker, thresholdExamined_lineCount]

theorem step_records : (lineStepped a b forward s).records = s.records :=
  (lineStepped_keeps a b forward s).records.trans <|
    (consequences_records forward _).trans (thresholdExamined_handed a b forward s).records

/-- A stand whose spindle a step finds stalled (R57). -/
theorem step_stalled {i : StandNo}
    (h : (s.stand i).stallDue (if forward then s.line.lineCount + 1 else s.line.lineCount - 1) = true) :
    ((lineStepped a b forward s).stand i).spindle = { (s.stand i).spindle with validity := .lost, ref := none } ∧
      (lineStepped a b forward s).host.notice.getLsbD 14 = true := by
  refine ⟨(step_spindle a b forward s i).trans (if_pos h), ?_⟩
  rw [(lineStepped_keeps a b forward s).host]
  refine consequences_notice forward (i := i) ?_
  have handed := (thresholdExamined_handed a b forward s).stand i
  rw [handed, thresholdExamined_lineCount]
  exact h

/-- The arbiter after a step (R136). -/
theorem step_arbiter :
    (lineStepped a b forward s).arbiter = { s.arbiter with
      lastNip :=
        if s.arbiter.lastNipValid = true ∧ forward = false ∧
            (if forward then s.line.lineCount + 1 else s.line.lineCount - 1) = s.arbiter.lastNip - 1073741825 then
          s.arbiter.lastNip - 1
        else s.arbiter.lastNip
      lastNipValid := s.arbiter.lastNipValid && !(forward && decide
        ((if forward then s.line.lineCount + 1 else s.line.lineCount - 1) = s.arbiter.lastNip + 1073741824)) } := by
  have arbiter : (thresholdExamined a b forward s).arbiter = s.arbiter := (thresholdExamined_handed a b forward s).arbiter
  rw [(lineStepped_keeps a b forward s).arbiter, consequences_arbiter, ageLastNip_arbiter_eq, arbiter,
    thresholdExamined_lineCount]

end

/-! ### The transition -/

/-- Everything that a transition can be (R1, R2): illegal, or a step of the line count in one of the directions. -/
theorem transition_cases {a b : Bool} {s : State} (hlow : s.host.resetLow = false)
    (h : (a != s.line.refA || b != s.line.refB) = true) :
    ∃ t, exec (.quadratureTransition a b) s = .next t ∧ TransitionFrame a b s t ∧
      (quadraturePlace a b = (quadraturePlace s.line.refA s.line.refB + 2) % 4 ∧
          t.line.lineCount = s.line.lineCount ∨
        ∃ forward : Bool,
          quadraturePlace a b = (quadraturePlace s.line.refA s.line.refB + (if forward then 1 else 3)) % 4 ∧
          t = lineStepped a b forward s) := by
  rcases places_of_change h with hplace | hplace | hplace
  · exact ⟨_, step_exec (forward := true) hlow hplace, step_frame a b true s, .inr ⟨true, hplace, rfl⟩⟩
  · obtain ⟨counted, raised⟩ := illegal_frame a b s
    by_cases hraise : 16 ≤ satInc max16 s.line.windowCount ∧ s.line.encoderFault = false
    · have frame := forStands_attemptFrame lineFaultConsequence_attemptFrame
        (raiseEncoderFault (illegalCounted a b s))
      refine ⟨_, illegal_raised hlow hplace hraise, raised, .inl ⟨hplace, ?_⟩⟩
      rw [(commit_keeps s _).line, frame.line]
      rfl
    · exact ⟨_, illegal_counted hlow hplace hraise, counted, .inl ⟨hplace, rfl⟩⟩
  · exact ⟨_, step_exec (forward := false) hlow hplace, step_frame a b false s, .inr ⟨false, hplace, rfl⟩⟩

/-- A transition has one direction. -/
theorem direction_unique {p : Nat} {f g : Bool}
    (h : (p + if f then 1 else 3) % 4 = (p + if g then 1 else 3) % 4) : f = g := by
  cases f <;> cases g <;> simp at h ⊢ <;> omega

/-- The line count after a transition, by its place (R1, R2). -/
theorem transition_lineCount {p q : Nat} {c c' : Word}
    (h : q = (p + 2) % 4 ∧ c' = c ∨
      ∃ forward : Bool, q = (p + (if forward then 1 else 3)) % 4 ∧ c' = if forward then c + 1 else c - 1) :
    c' = if q = (p + 1) % 4 then c + 1 else if q = (p + 3) % 4 then c - 1 else c := by
  rcases h with ⟨hq, hc⟩ | ⟨forward, hq, hc⟩
  · rw [hc, if_neg (by omega), if_neg (by omega)]
  · cases forward with
    | true => exact hc.trans (if_pos (show q = (p + 1) % 4 from hq)).symm
    | false =>
      have back : q = (p + 3) % 4 := hq
      rw [if_neg (by omega), if_pos back]
      exact hc

/-- Settles O23: `transition_cases` for what a transition is, `TransitionFrame` for what each leaves, and the parts of a
step for what a step of the line count brings about. -/
theorem quadratureStepsTheLineCount : Obligations.QuadratureStepsTheLineCount := by
  intro a b s hlow hchange
  obtain ⟨t, hexec, frame, hcase⟩ := transition_cases hlow hchange
  have line := frame.line
  refine ⟨t, hexec, by rw [line], by rw [line], transition_lineCount ?_,
    by rw [line], by rw [line], by rw [line],
    by rw [line], by rw [line], by rw [line], by rw [line],
    by rw [line], by rw [line], by rw [line],
    frame.safe, frame.phases, frame.free, frame.pending, frame.host, frame.outside, fun hlegal => ?_,
    fun forward hstep => ?_⟩
  · rcases hcase with hillegal | ⟨forward, hplace, ht⟩
    · exact .inl hillegal
    · exact .inr ⟨forward, hplace, by rw [ht, step_line, thresholdExamined_lineCount]⟩
  · rcases hcase with ⟨hillegal, _⟩ | ⟨forward, _, ht⟩
    · exact absurd hillegal hlegal
    · have counts := thresholdExamined_line a b forward s
      rw [ht, step_line]
      refine ⟨by rw [counts]; rfl, by rw [counts]; rfl, by rw [counts]; rfl, fun i => ?_⟩
      have kept := step_keeps a b forward s i
      exact ⟨kept.phase, kept.running, kept.ready, kept.setup, kept.staged, kept.tab, kept.inputs, kept.duty, kept.ref⟩
  · rcases hcase with ⟨hillegal, _⟩ | ⟨forward', hplace, ht⟩
    · cases forward <;> simp at hstep <;> omega
    · obtain rfl := direction_unique (hplace.symm.trans hstep)
      rw [ht]
      obtain ⟨table, records⟩ := step_agree a b forward' s
      rw [thresholdExamined_lineCount] at table records
      refine ⟨step_arbiter a b forward' s, step_tracker a b forward' s, table, step_records a b forward' s,
        fun i => ⟨records i, fun hstall => ?_, fun hstall => ?_, fun hcut => ?_, fun hcut => ?_⟩⟩
      · exact step_stalled a b forward' s ((stallDue_iff _ _).mpr hstall)
      · exact (step_spindle a b forward' s i).trans (if_neg (mt (stallDue_iff _ _).mp hstall))
      · exact step_cuts a b forward' s ((knifeDue_iff _ _).mpr hcut)
      · exact step_not_cuts a b forward' s (mt (knifeDue_iff _ _).mp hcut)

end Sys2Proof.Machine
end

section
/-!
PROOFS, chapter 1: time on an empty queue (R3; log entry 2). Every event that a sample may confirm leaves the clock, the
sample time and the line count.
-/
namespace Sys2Proof.Machine

/-! ### The events of the stands -/

theorem raise_standEvent (n : Notice) (s : State) : StandEventFrame s (raise n s) := (raise_frame n s).standEvent

theorem touchStand_standEvent (i : StandNo) (s : State) : StandEventFrame s (touchStand i s) :=
  (touchStand_frame i s).standEvent

theorem evaluate_standEvent (s : State) : StandEventFrame s (evaluate s) := (evaluate_attemptFrame s).toStandEventFrame

theorem abortAttempt_standEvent (i : StandNo) (cause : AbortCause) (target : WinddownTarget) (s : State) :
    StandEventFrame s (abortAttempt i cause target s) := (abortAttempt_attemptFrame i cause target s).toStandEventFrame

theorem markLost_standEvent (i : StandNo) (s : State) : StandEventFrame s (markLost i s) :=
  (markLost_attemptFrame i s).toStandEventFrame

theorem evaluateStart_standEvent (i : StandNo) (s : State) : StandEventFrame s (evaluateStart i s) := by
  rcases evaluateStart_cases i s with h | ⟨_, _, h⟩ <;> rw [h]
  · exact .refl s
  · exact .enter i _ s

/-- An entry to FAULTED (R94). -/
theorem enterFaulted_standEvent (i : StandNo) (cause : AbortCause) (s : State) :
    StandEventFrame s (enterFaulted i cause s) := by
  have stopped : StandEventFrame s (stopPaste i (setCause i (some cause) s)) :=
    (StandEventFrame.modStand i _ s).trans (.modStand i _ _)
  have faulted {u : State} (h : StandEventFrame s u) : StandEventFrame s (raise .standFault (enter i .faulted u)) :=
    (h.trans (.enter i .faulted u)).trans (raise_standEvent _ _)
  refine faulted ?_
  split
  · exact (stopped.trans (releaseWithoutNip_attemptFrame i _).toStandEventFrame).trans
      (createAborted_frame i cause _).standEvent
  · exact stopped.trans (closeRecord_frame i _ _ _).standEvent

theorem webBreakConsequence_standEvent (i : StandNo) (s : State) : StandEventFrame s (webBreakConsequence i s) := by
  have idle : StandEventFrame s (enter i .idle (dropRunning i s)) :=
    (StandEventFrame.modStand i _ s).trans (.enter i .idle _)
  unfold webBreakConsequence
  cases s.phase i
  case idle | faulted => exact .refl s
  case running | prepared | held => exact idle
  case accelerating | matching | armed => exact abortAttempt_standEvent i _ _ s
  case winddown => exact .modStand i _ s
  case pasting | cutting | indexing => exact enterFaulted_standEvent i _ s

theorem safeConsequence_standEvent (i : StandNo) (s : State) : StandEventFrame s (safeConsequence i s) := by
  unfold safeConsequence
  cases s.phase i
  case accelerating | matching | armed | pasting => exact abortAttempt_standEvent i _ _ s
  case cutting | indexing => exact enterFaulted_standEvent i _ s
  case idle | running | prepared | held | winddown | faulted => exact .refl s

theorem safeEndsJog_standEvent (i : StandNo) (s : State) : StandEventFrame s (safeEndsJog i s) := by
  unfold safeEndsJog
  split
  · exact (StandEventFrame.modStand i _ s).trans (evaluateStart_standEvent i _)
  · exact .refl s

/-! ### Spindle marks -/

theorem runoutCheck_standEvent (i : StandNo) (s : State) : StandEventFrame s (runoutCheck i s) := by
  unfold runoutCheck
  dsimp only
  split
  · exact .refl s
  · split
    · exact (StandEventFrame.modStand i _ s).trans (raise_standEvent _ _)
    · exact .refl s

theorem storeRevolution_standEvent (i : StandNo) (v : Nat) (s : State) : StandEventFrame s (storeRevolution i v s) :=
  (StandEventFrame.modStand i _ s).trans <| (runoutCheck_standEvent i _).trans <|
    (touchStand_standEvent i _).trans (evaluateStart_standEvent i _)

theorem rejectRevolution_standEvent (i : StandNo) (s : State) : StandEventFrame s (rejectRevolution i s) := by
  unfold rejectRevolution
  dsimp only
  split
  · exact ((StandEventFrame.modStand i _ s).trans (.modStand i _ _)).trans (raise_standEvent _ _)
  · exact .modStand i _ s

theorem judgeRevolution_standEvent (i : StandNo) (c : Nat) (s : State) :
    StandEventFrame s (judgeRevolution i c s) := by
  unfold judgeRevolution
  dsimp only
  split
  · exact (StandEventFrame.modStand i _ s).trans (storeRevolution_standEvent i _ _)
  · exact storeRevolution_standEvent i _ s
  · split
    · split
      · exact storeRevolution_standEvent i _ s
      · exact rejectRevolution_standEvent i s
    · split
      · exact storeRevolution_standEvent i _ s
      · exact (StandEventFrame.modStand i _ s).trans (storeRevolution_standEvent i _ _)
      · exact rejectRevolution_standEvent i s

theorem takeSpindleMark_standEvent (i : StandNo) (s : State) : StandEventFrame s (takeSpindleMark i s) := by
  unfold takeSpindleMark
  dsimp only
  split
  · split
    · exact .modStand i _ s
    · split
      · exact (StandEventFrame.modStand i _ s).trans (judgeRevolution_standEvent i _ _)
      · exact .modStand i _ s
  · exact .refl s

/-! ### Tab marks and the nip -/

theorem trackSplice_standEvent (i : StandNo) (serial : Nat) (nip : Word) (s : State) :
    StandEventFrame s (trackSplice i serial nip s) := by
  have dropped : StandEventFrame s (dropDuplicate serial s) :=
    (setEntries_standEvent _ s).trans (retireLost_frame _ _).standEvent
  unfold trackSplice
  dsimp only
  split
  · exact dropped.trans (setEntries_standEvent _ _)
  · exact ((dropped.trans (modOpen_frame i _ _).standEvent).trans (raise_standEvent _ _)).trans (.modTracker _ _)

/-- The nip event (R124). -/
theorem nipEvent_standEvent (i : StandNo) (s : State) : StandEventFrame s (nipEvent i s) := by
  have opened : StandEventFrame s (openRecord i (latchNip i s)) :=
    (StandEventFrame.modStand i _ s).trans (openRecord_frame i _).standEvent
  have released {u : State} (nip : Word) (h : StandEventFrame s u) : StandEventFrame s (releaseAtNip nip u) :=
    (h.trans (.modArbiter _ u)).trans (evaluate_standEvent _)
  have waiting {u : State} (h : StandEventFrame s u) :
      StandEventFrame s (checkKnife i (enter i .cutting (waitKnife i (u.modStand i Stand.freeze)))) :=
    h.trans <| (StandEventFrame.modStand i _ u).trans <| (StandEventFrame.modStand i _ _).trans <|
      (StandEventFrame.enter i .cutting _).trans (checkKnife_standEvent i _)
  unfold nipEvent
  exact waiting (released s.line.lineCount
    (opened.trans (trackSplice_standEvent i s.records.nextSerial s.line.lineCount _)))

theorem passThrough_standEvent (i : StandNo) (s : State) : StandEventFrame s (passThrough i s) := by
  have fired : StandEventFrame s (if fireDue s i then fireEvent i s else s) := by
    split
    · exact .modStand i _ s
    · exact .refl s
  unfold passThrough
  generalize (if fireDue s i then fireEvent i s else s) = x at fired ⊢
  dsimp only
  split
  · exact fired.trans (nipEvent_standEvent i _)
  · exact fired

theorem armingMark_standEvent (i : StandNo) (p : Nat) (m : Word) (s : State) :
    StandEventFrame s (armingMark i p m s) := by
  have committed (f : FirePoint) : StandEventFrame s (commitFire i m f s) :=
    (StandEventFrame.modStand i _ s).trans (.enter i .pasting _)
  unfold armingMark
  dsimp only
  split
  · exact (committed _).trans (passThrough_standEvent i _)
  · split
    · exact abortAttempt_standEvent i _ _ s
    · exact .refl s

theorem pasteMark_standEvent (i : StandNo) (taken : Phase) (p : Nat) (m : Word) (s : State) :
    StandEventFrame s (pasteMark i taken p m s) := by
  unfold pasteMark
  dsimp only
  split
  · exact (StandEventFrame.modStand i _ s).trans (armingMark_standEvent i p m _)
  · exact .modStand i _ s

theorem evaluateRevolution_standEvent (i : StandNo) (taken : Phase) (cTab : Nat) (s : State) :
    StandEventFrame s (evaluateRevolution i taken cTab s) := by
  unfold evaluateRevolution
  dsimp only
  split
  · exact .refl s
  · split
    · exact ((StandEventFrame.modStand i _ s).trans (.modArbiter _ _)).trans (evaluate_standEvent _)
    · split
      · exact (StandEventFrame.modStand i _ s).trans (.modArbiter _ _)
      · exact .modStand i _ s

theorem governingMark_standEvent (i : StandNo) (taken : Phase) (s : State) :
    StandEventFrame s (governingMark i taken s) := by
  have taken' (t : TabSide) : StandEventFrame s (touchStand i (setTab i t s)) :=
    (StandEventFrame.modStand i _ s).trans (touchStand_standEvent i _)
  have handed (t : TabSide) (p cTab : Nat) (m : Word) :
      StandEventFrame s (pasteMark i taken p m (evaluateRevolution i taken cTab (touchStand i (setTab i t s)))) :=
    (taken' t).trans <| (evaluateRevolution_standEvent i taken cTab _).trans (pasteMark_standEvent i taken p m _)
  unfold governingMark
  dsimp only
  split
  · exact taken' _
  · split
    · exact (taken' _).trans (markLost_standEvent i _)
    · exact taken' _
  · exact handed _ _ _ _
  · exact handed _ _ _ _

theorem takeTabMark_standEvent (i : StandNo) (s : State) : StandEventFrame s (takeTabMark i s) := by
  unfold takeTabMark
  cases s.phase i
  case accelerating | pasting | cutting | indexing => exact .modStand i _ s
  case matching | armed => exact governingMark_standEvent i _ s
  case idle | running | prepared | held | winddown | faulted => exact .refl s

theorem takeHomeMark_standEvent (i : StandNo) (s : State) : StandEventFrame s (takeHomeMark i s) := by
  unfold takeHomeMark
  split
  · exact (StandEventFrame.modStand i _ s).trans <| (closeRecord_frame i _ _ _).standEvent.trans (.enter i .running _)
  · exact .refl s

/-! ### What a sample leaves -/

/-- What time and the events that a sample confirms leave of what R3 counts: the clock, the sample time, the line count, the
sample counter; and the queue of commands. -/
structure ClockFrame (s t : State) : Prop where
  usClock       : t.line.usClock = s.line.usClock
  nextSample    : t.line.nextSample = s.line.nextSample
  lineCount     : t.line.lineCount = s.line.lineCount
  sampleCounter : t.line.sampleCounter = s.line.sampleCounter
  pending       : t.pending = s.pending

theorem ClockFrame.refl (s : State) : ClockFrame s s := ⟨rfl, rfl, rfl, rfl, rfl⟩

theorem ClockFrame.trans {s t u : State} (h : ClockFrame s t) (k : ClockFrame t u) : ClockFrame s u :=
  ⟨k.usClock.trans h.usClock, k.nextSample.trans h.nextSample, k.lineCount.trans h.lineCount,
    k.sampleCounter.trans h.sampleCounter, k.pending.trans h.pending⟩

theorem ClockFrame.of_line {s t : State} (hl : t.line = s.line) (hp : t.pending = s.pending) : ClockFrame s t := by
  refine ⟨?_, ?_, ?_, ?_, hp⟩ <;> rw [hl]

/-- A guarded event keeps what both of its branches keep. -/
theorem ClockFrame.ite {s t u : State} {c : Prop} [Decidable c] (h : ClockFrame s t) (k : ClockFrame s u) :
    ClockFrame s (if c then t else u) := by
  split
  · exact h
  · exact k

theorem StandEventFrame.clock {s t : State} (h : StandEventFrame s t) : ClockFrame s t := .of_line h.line h.pending

theorem HandedFrame.clock {s t : State} (h : HandedFrame s t) : ClockFrame s t := .of_line h.line h.pending

/-- A filter stands in the line reference, beside it or in a stand: replacing it reaches nothing that R3 counts. -/
theorem putInput_clock (n : Line) (x : Input) (s : State) : ClockFrame s (putInput n x s) := by
  cases n <;> exact ⟨rfl, rfl, rfl, rfl, rfl⟩

theorem flipInput_clock (n : Line) (s : State) : ClockFrame s (flipInput n s) := putInput_clock n _ s

theorem judgeCut_clock (c : Word) (s : State) : ClockFrame s (judgeCut c s) := by
  have real : ClockFrame s (makeReal c s) :=
    ClockFrame.trans (t := s.modLine fun l => l.realBoundary c) ⟨rfl, rfl, rfl, rfl, rfl⟩ (handBoundary_frame c _).clock
  unfold judgeCut
  split
  · exact .refl s
  · split
    · exact real
    · split
      · exact real
      · exact ⟨rfl, rfl, rfl, rfl, rfl⟩

theorem safeAssertionEvent_clock (s : State) : ClockFrame s (safeAssertionEvent s) :=
  (flipInput_clock .safe s).trans <| (raise_standEvent .safe _).clock.trans <|
    (forStands_standEvent (fun i s => .modStand i _ s) _).clock.trans <|
      (forStands_standEvent safeEndsJog_standEvent _).clock.trans
        (forStands_standEvent safeConsequence_standEvent _).clock

theorem webBreakEvent_clock (i : StandNo) (k : Fin 4) (s : State) : ClockFrame s (webBreakEvent i k s) :=
  (flipInput_clock _ s).trans <| (StandEventFrame.modStand i _ _).clock.trans <|
    (raise_standEvent .webBreak _).clock.trans (webBreakConsequence_standEvent i _).clock

theorem spindleMarkEvent_clock (i : StandNo) (s : State) : ClockFrame s (spindleMarkEvent i s) :=
  (flipInput_clock _ s).trans (takeSpindleMark_standEvent i _).clock

theorem tabMarkEvent_clock (i : StandNo) (s : State) : ClockFrame s (tabMarkEvent i s) :=
  (flipInput_clock _ s).trans (takeTabMark_standEvent i _).clock

theorem homeMarkEvent_clock (i : StandNo) (s : State) : ClockFrame s (homeMarkEvent i s) :=
  (flipInput_clock _ s).trans (takeHomeMark_standEvent i _).clock

theorem breakReleaseEvent_clock (i : StandNo) (k : Fin 4) (s : State) : ClockFrame s (breakReleaseEvent i k s) :=
  (flipInput_clock _ s).trans (StandEventFrame.modStand i _ _).clock

/-- The event that a confirmed change makes (R15, R17, R20 to R24). -/
theorem conditionedChange_clock (n : Line) (s : State) : ClockFrame s (conditionedChange n s) := by
  have flip : ClockFrame s (flipInput n s) := flipInput_clock n s
  cases n with
  | cut => exact .ite ((flipInput_clock .cut s).trans (judgeCut_clock _ _)) flip
  | safe => exact .ite (safeAssertionEvent_clock s) flip
  | stand i m =>
    cases m with
    | spindle => exact .ite (spindleMarkEvent_clock i s) flip
    | tabA => exact .ite (tabMarkEvent_clock i s) flip
    | tabB => exact .ite (tabMarkEvent_clock i s) flip
    | indexHome => exact .ite (homeMarkEvent_clock i s) flip
    | brk k => exact .ite (webBreakEvent_clock i k s) (.ite (breakReleaseEvent_clock i k s) flip)

theorem sampleInput_clock (s : State) (n : Line) : ClockFrame s (sampleInput s n) := by
  unfold sampleInput
  split
  · exact conditionedChange_clock n s
  · exact putInput_clock n _ s

theorem sampleInputs_clock (ns : List Line) (s : State) : ClockFrame s (ns.foldl sampleInput s) := by
  induction ns generalizing s with
  | nil => exact .refl s
  | cons n rest ih => exact (sampleInput_clock s n).trans (ih _)

/-- The samples of one instant (R6, R15, R23). -/
theorem sampleAll_clock (fast slow : Bool) (s : State) : ClockFrame s (sampleAll fast slow s) := by
  have wide : ClockFrame s (if fast then [Line.cut, Line.safe].foldl sampleInput s else s) := by
    split
    · exact sampleInputs_clock _ s
    · exact .refl s
  refine forStands_induct (P := ClockFrame s) (fun i t h => h.trans ?_) wide
  split
  · exact sampleInputs_clock _ t
  · exact .refl t

/-! ### The tick -/

/-- One µs: the clock advances by one, and nothing else that R3 counts moves. -/
theorem tick_clock {s : State} (h : s.host.resetLow = false) :
    (tick s).line.usClock = s.line.usClock + 1 ∧ (tick s).line.nextSample = s.line.nextSample ∧
      (tick s).line.lineCount = s.line.lineCount ∧ (tick s).line.sampleCounter = s.line.sampleCounter ∧
      (tick s).pending = s.pending := by
  unfold tick
  rw [if_neg (by simp [h])]
  dsimp only
  generalize hu : (State.modLine _ _) = u
  have start : u.line = { s.line with usClock := s.line.usClock + 1 } ∧ u.pending = s.pending := by
    rw [← hu]
    exact ⟨rfl, rfl⟩
  obtain ⟨line, pending⟩ := start
  have kept := sampleAll_clock (decide (1 ≤ s.phases.fast)) (decide (49 ≤ s.phases.slow)) u
  have keeps := commit_keeps s (sampleAll (decide (1 ≤ s.phases.fast)) (decide (49 ≤ s.phases.slow)) u)
  rw [keeps.line, keeps.pending, kept.usClock, kept.nextSample, kept.lineCount, kept.sampleCounter, kept.pending, line,
    pending]
  exact ⟨rfl, rfl, rfl, rfl, rfl⟩

/-- A step on an empty queue (log entry 2). -/
theorem step_of_empty {s : State} (h : s.pending = []) : step s = idle s := by
  rw [step, h]

/-- Settles O2: an idle step is the due command's, or a tick. -/
theorem emptyQueueLetsTimeRun : Obligations.EmptyQueueLetsTimeRun := by
  intro s hempty
  rw [step_of_empty hempty]
  refine ⟨fun c hdue => ?_, fun hnone hlow => ?_, fun hnone hlow => ?_⟩
  · rw [idle, hdue]
  · rw [idle, hnone]
    simp only [tick, hlow, if_true]
  · rw [idle, hnone]
    obtain ⟨clock, sample, count, counter, pending⟩ := tick_clock hlow
    exact ⟨tick s, rfl, clock, sample, count, counter, pending.trans hempty⟩

end Sys2Proof.Machine
end

section
/-!
PROOFS, chapter 3: the intake of a request at a stand's slot (R180, R184), for a request whose rule acts on its own stand.
-/
namespace Sys2Proof.Machine

/-! ### What acts on one stand -/

/-- Stand i alone, the table interface but for the line block's count, and the bytes given are all that may differ. -/
structure OwnFrame (i : StandNo) (bytes : Nat → Prop) (s t : State) : Prop where
  state       : t = { s with stands := t.stands, host := t.host, mem := t.mem }
  lineUpdates : t.host.lineUpdates = s.host.lineUpdates
  others      : ∀ j, j ≠ i → t.stand j = s.stand j
  read        : sameOutside bytes s t

theorem OwnFrame.refl (i : StandNo) (bytes : Nat → Prop) (s : State) : OwnFrame i bytes s s :=
  ⟨rfl, rfl, fun _ _ => rfl, fun _ _ => rfl⟩

theorem OwnFrame.trans {i : StandNo} {bytes : Nat → Prop} {s t u : State} (h : OwnFrame i bytes s t)
    (k : OwnFrame i bytes t u) : OwnFrame i bytes s u where
  state := k.state.trans (by rw [h.state])
  lineUpdates := k.lineUpdates.trans h.lineUpdates
  others j hj := (k.others j hj).trans (h.others j hj)
  read x hx := (k.read x hx).trans (h.read x hx)

theorem OwnFrame.mono {i : StandNo} {bytes more : Nat → Prop} {s t : State} (h : OwnFrame i bytes s t)
    (sub : ∀ a, bytes a → more a) : OwnFrame i more s t :=
  ⟨h.state, h.lineUpdates, h.others, fun x hx => h.read x (mt (sub x) hx)⟩

theorem OwnFrame.modStand (i : StandNo) (bytes : Nat → Prop) (f : Stand → Stand) (s : State) :
    OwnFrame i bytes s (s.modStand i f) :=
  ⟨rfl, rfl, fun _ hj => s.modStand_stand_ne f hj, fun _ _ => rfl⟩

theorem OwnFrame.raise (i : StandNo) (bytes : Nat → Prop) (n : Notice) (s : State) : OwnFrame i bytes s (raise n s) :=
  ⟨rfl, rfl, fun _ _ => rfl, fun _ _ => rfl⟩

theorem OwnFrame.enter (i : StandNo) (bytes : Nat → Prop) (p : Phase) (s : State) : OwnFrame i bytes s (enter i p s) := by
  have entered := (OwnFrame.modStand i bytes (fun d => (d.changePhase p).onEntry s.line.usClock p) s).trans
    (.raise i bytes (.standNews i) _)
  rw [Machine.enter, recordEvent, touchStand]
  split
  · exact entered
  · exact entered.trans (.modStand i bytes _ _)

theorem OwnFrame.evaluateStart (i : StandNo) (bytes : Nat → Prop) (s : State) :
    OwnFrame i bytes s (evaluateStart i s) := by
  rcases evaluateStart_cases i s with h | ⟨_, _, h⟩ <;> rw [h]
  · exact .refl i bytes s
  · exact .enter i bytes .accelerating s

theorem OwnFrame.runoutCheck (i : StandNo) (bytes : Nat → Prop) (s : State) : OwnFrame i bytes s (runoutCheck i s) := by
  unfold Machine.runoutCheck
  dsimp only
  split
  · exact .refl i bytes s
  · split
    · exact (OwnFrame.modStand i bytes _ s).trans (.raise i bytes .runout _)
    · exact .refl i bytes s

/-! ### The blocks of one stand -/

theorem writeStandBlock_own (i : StandNo) (s : State) : OwnFrame i (standRewriteBytes i) s (writeStandBlock i s) := by
  refine ⟨rfl, rfl, fun _ _ => rfl, fun x hx => Memory.writeWords_read_outside _ _ _ ?_⟩
  simp only [standRewriteBytes, standBlockBytes] at hx
  simp only [standBlock_length]
  omega

theorem writeImage_own (i : StandNo) (n : Word) (s : State) : OwnFrame i (imageBytes i) s (writeImage i n s) := by
  refine ⟨rfl, rfl, fun j hj => ?_, fun x hx => Memory.writeWords_read_outside _ _ _ ?_⟩
  · rw [writeImage, State.setMem_stand, State.modStand_stand_ne _ _ hj]
  · simp only [imageBytes] at hx
    simp only [imageWords_length]
    omega

theorem commitStand_own (b : State) (i : StandNo) (s : State) :
    OwnFrame i (standRewriteBytes i) s (commitStand b i s) := by
  unfold commitStand
  dsimp only
  split
  · exact .refl i _ s
  · split
    · exact (writeStandBlock_own i s).trans ((writeImage_own i _ _).mono fun _ => .inr)
    · exact writeStandBlock_own i s

/-- An operation over the stands whose parts for the other stands do nothing is its part for stand i. -/
theorem forStands_eq_part {f : StandNo → State → State} {i : StandNo} {s : State}
    (before : ∀ j, j ≠ i → f j s = s) (after : ∀ j, j ≠ i → f j (f i s) = f i s) : forStands f s = f i s := by
  have rest (is : List StandNo) (hi : i ∉ is) : is.foldl (fun s j => f j s) (f i s) = f i s := by
    induction is with
    | nil => rfl
    | cons j is ih =>
      rw [List.mem_cons, not_or] at hi
      obtain ⟨hj, his⟩ := hi
      rw [List.foldl_cons, after j (Ne.symm hj), ih his]
  have main (is : List StandNo) (nodup : is.Nodup) (hi : i ∈ is) : is.foldl (fun s j => f j s) s = f i s := by
    induction is with
    | nil => simp at hi
    | cons j is ih =>
      obtain ⟨hj, his⟩ := List.nodup_cons.mp nodup
      by_cases h : j = i
      · subst h
        exact rest is hj
      · rw [List.foldl_cons, before j h]
        exact ih his ((List.mem_cons.mp hi).resolve_left (Ne.symm h))
  exact main standNumbers (by decide) (mem_standNumbers i)

/-- The end of an event that acted on stand i alone writes the blocks of stand i alone (R183). -/
theorem commit_own {i : StandNo} {bytes : Nat → Prop} {b u : State} (h : OwnFrame i bytes b u) :
    commit b u = commitStand b i u := by
  have idle {t : State} (ht : ∀ j, j ≠ i → t.stand j = b.stand j) (j : StandNo) (hj : j ≠ i) : commitStand b j t = t := by
    simp [commitStand, ht j hj]
  rw [commit, commitLine, if_pos h.lineUpdates]
  exact forStands_eq_part (idle h.others) (idle fun j hj => ((commitStand_own b i u).others j hj).trans (h.others j hj))

/-! ### The intake -/

/-- The state in which the owner of a request finds the part: the member is out of the attention set (R180). -/
def slotTaken (slot : Slot) (s : State) : State := removeMember (attentionBit slot) s

@[simp] theorem slotTaken_phase (slot : Slot) (s : State) (i : StandNo) : (slotTaken slot s).phase i = s.phase i := rfl
@[simp] theorem slotTaken_stand (slot : Slot) (s : State) (i : StandNo) : (slotTaken slot s).stand i = s.stand i := rfl
@[simp] theorem slotTaken_reelRequest (slot : Slot) (s : State) (i : StandNo) :
    (slotTaken slot s).reelRequest i = s.reelRequest i := rfl
@[simp] theorem slotTaken_setupRequest (slot : Slot) (s : State) (i : StandNo) :
    (slotTaken slot s).setupRequest i = s.setupRequest i := rfl

/-- A request that is taken in: the owner's rule acts, its blocks and the image are written, and the answer is its result
(R180, R184). -/
theorem slot_intake {slot : Slot} {kind : Nat} {owner : State → Result × State} {s w : State} {r : Result}
    (hlow : s.host.resetLow = false) (hdue : requestDue slot kind s = true) (howner : owner (slotTaken slot s) = (r, w)) :
    intake slot kind owner s = .next (answer slot kind r (intakeImage slot (commit (slotTaken slot s) w))) := by
  have hkind : headerKind (s.header slot) = kind := by
    simp only [requestDue, Bool.and_eq_true, beq_iff_eq] at hdue
    exact hdue.2
  rw [intake_pos hlow hdue, intakeEvent, hkind]
  change Host.Outcome.next (answer slot kind (owner (slotTaken slot s)).1
    (intakeImage slot (commit (slotTaken slot s) (owner (slotTaken slot s)).2))) = _
  rw [howner]

/-- The two slots of a stand. -/
def StandSlot (slot : Slot) (i : StandNo) : Prop := slot = .order i ∨ slot = .command i

theorem intakeImage_own {slot : Slot} {i : StandNo} (hslot : StandSlot slot i) (s : State) :
    OwnFrame i (imageBytes i) s (intakeImage slot s) := by
  rcases hslot with rfl | rfl
  · exact writeImage_own i 1 s
  · unfold intakeImage
    dsimp only
    split
    · exact writeImage_own i 1 s
    · exact .refl i _ s

theorem intakeImage_keeps (slot : Slot) (s : State) : CommitKeeps s (intakeImage slot s) := by
  cases slot with
  | line => exact .refl s
  | order i => exact writeImage_keeps i 1 s
  | command i =>
    unfold intakeImage
    dsimp only
    split
    · exact writeImage_keeps i 1 s
    · exact .refl s

theorem answer_own (slot : Slot) (i : StandNo) (kind : Nat) (r : Result) (s : State) :
    OwnFrame i (headerBytes slot) s (answer slot kind r s) := by
  cases slot <;> exact ⟨rfl, rfl, fun _ _ => rfl, answer_sameOutside _ kind r rfl⟩

/-- The answer to a request after which only the image may have been written (R180, R184). -/
theorem answer_answered (slot : Slot) (kind : Nat) (r : Result) {u : State} {stands : Vector Stand 8} {m : Memory}
    (stand : ∀ j : StandNo, stands[j.val] = { u.stand j with imageCount := stands[j.val].imageCount }) :
    Answered slot kind r u (answer slot kind r { slotTaken slot u with stands := stands, mem := m }) := by
  cases slot <;> exact ⟨answer_header _ kind r _, rfl, rfl, rfl, rfl, stand⟩

/-- A stand in an answer is the one that the owning rule leaves, but for its image count. -/
theorem Answered.stand {slot : Slot} {kind : Nat} {r : Result} {u t : State} (h : Answered slot kind r u t) (j : StandNo) :
    t.stand j = { u.stand j with imageCount := (t.stand j).imageCount } := by
  obtain ⟨_, _, _, _, _, stand⟩ := h
  exact stand j

/-- What the intake of a request leaves whose rule acts on its own stand: the answer, and the stand as the rule leaves it. -/
structure OwnAnswer (slot : Slot) (i : StandNo) (kind : Nat) (r : Result) (s w t : State) : Prop where
  header : t.header slot = doneHeader kind r
  own    : t.stand i = { w.stand i with imageCount := (t.stand i).imageCount }
  frame  : OwnFrame i (fun a => headerBytes slot a ∨ standRewriteBytes i a) s t

theorem own_intake {slot : Slot} {i : StandNo} {kind : Nat} {owner : State → Result × State} {s w : State} {r : Result}
    (hslot : StandSlot slot i) (hlow : s.host.resetLow = false) (hdue : requestDue slot kind s = true)
    (howner : owner (slotTaken slot s) = (r, w)) (hw : OwnFrame i (fun _ => False) (slotTaken slot s) w) :
    ∃ t, intake slot kind owner s = .next t ∧ OwnAnswer slot i kind r s w t := by
  have taken : OwnFrame i (fun _ => False) s (slotTaken slot s) := ⟨rfl, rfl, fun _ _ => rfl, fun _ _ => rfl⟩
  have blocks : OwnFrame i (standRewriteBytes i) w (commit (slotTaken slot s) w) := by
    rw [commit_own hw]
    exact commitStand_own _ i w
  have image := (intakeImage_own hslot (commit (slotTaken slot s) w)).mono (more := standRewriteBytes i) fun _ => .inr
  have keeps := (commit_keeps (slotTaken slot s) w).trans (intakeImage_keeps slot _)
  refine ⟨_, slot_intake hlow hdue howner, answer_header slot kind r _, ?_, ?_⟩
  · have answered (u : State) : (answer slot kind r u).stand i = u.stand i := by cases slot <;> rfl
    rw [answered]
    exact keeps.stand i
  · exact (((taken.trans hw).mono fun _ => False.elim).trans ((blocks.trans image).mono fun _ => .inr)).trans
      ((answer_own slot i kind r _).mono fun _ => .inl)

/-- A request whose rule leaves no rewrite event: beside what the rule does, in `u`, there is the answer alone. -/
theorem quiet_intake {slot : Slot} {i : StandNo} {kind : Nat} {owner : State → Result × State} {s u : State} {r : Result}
    (hslot : StandSlot slot i) (hlow : s.host.resetLow = false) (hdue : requestDue slot kind s = true)
    (howner : owner (slotTaken slot s) = (r, slotTaken slot u)) (hu : OwnFrame i (fun _ => False) s u)
    (hcount : (u.stand i).updateCount = (s.stand i).updateCount) :
    ∃ t, intake slot kind owner s = .next t ∧ Answered slot kind r u t ∧
      OwnFrame i (fun a => headerBytes slot a ∨ imageBytes i a) s t := by
  have counts (j : StandNo) : (u.stand j).updateCount = (s.stand j).updateCount := by
    by_cases h : j = i
    · rw [h, hcount]
    · rw [hu.others j h]
  have quiet : commit (slotTaken slot s) (slotTaken slot u) = slotTaken slot u := commit_eq_self hu.lineUpdates counts
  have image := intakeImage_own hslot (slotTaken slot u)
  have keeps := intakeImage_keeps slot (slotTaken slot u)
  have taken : OwnFrame i (fun _ => False) u (slotTaken slot u) := ⟨rfl, rfl, fun _ _ => rfl, fun _ _ => rfl⟩
  refine ⟨_, slot_intake hlow hdue howner, ?_, ?_⟩
  · have state : intakeImage slot (slotTaken slot u) = { slotTaken slot u with
        stands := (intakeImage slot (slotTaken slot u)).stands, mem := (intakeImage slot (slotTaken slot u)).mem } :=
      image.state.trans (by rw [keeps.host])
    rw [quiet, state]
    exact answer_answered slot kind r keeps.stand
  · rw [quiet]
    exact (((hu.trans taken).mono fun _ => False.elim).trans (image.mono fun _ => .inr)).trans
      ((answer_own slot i kind r _).mono fun _ => .inl)

/-- A request that its rule refuses: the answer alone (R180, R182). -/
theorem refused_intake {slot : Slot} {i : StandNo} {kind : Nat} {owner : State → Result × State} {s : State} {r : Result}
    (hslot : StandSlot slot i) (hlow : s.host.resetLow = false) (hdue : requestDue slot kind s = true)
    (howner : owner (slotTaken slot s) = (r, slotTaken slot s)) :
    ∃ t, intake slot kind owner s = .next t ∧ Answered slot kind r s t ∧
      OwnFrame i (fun a => headerBytes slot a ∨ standRewriteBytes i a) s t := by
  obtain ⟨t, exec, answered, frame⟩ := quiet_intake hslot hlow hdue howner (.refl i _ s) rfl
  exact ⟨t, exec, answered, frame.mono fun _ => .imp_right .inr⟩

end Sys2Proof.Machine
end

section
/-!
PROOFS, chapter 3: DECLARE RUNNING, LOAD REEL and CANCEL REEL (R35 to R40).
-/
namespace Sys2Proof.Machine

/-! ### The judgement -/

theorem inRange_iff (lo hi n : Nat) : Machine.inRange lo hi n = true ↔ lo ≤ n ∧ n ≤ hi := by
  simp [Machine.inRange]

/-- Checks 1, 2, 3 and 5 of R35 are the ranges of R34. -/
theorem reel_geometryOk_iff (r : Reel) : r.geometryOk = true ↔ r.inRange := by
  simp only [Reel.geometryOk, Reel.inRange, Bool.and_eq_true, inRange_iff, decide_eq_true_eq, and_assoc]

/-- Check 6 of R35 is the range of the current diameter. -/
theorem runningReel_geometryOk_iff (r : RunningReel) : r.geometryOk = true ↔ r.inRange := by
  rw [RunningReel.geometryOk, RunningReel.inRange, Bool.and_eq_true, reel_geometryOk_iff]
  cases r.current <;> simp [presentInRange, inRange_iff]

/-- Check 4 of R35 follows from check 5. -/
theorem reel_loadOk_iff (r : Reel) : r.loadOk = true ↔ r.inRange := by
  rw [Reel.loadOk, Bool.and_eq_true, reel_geometryOk_iff, decide_eq_true_eq, and_iff_left_iff_imp, Reel.inRange]
  omega

/-! ### The runout check and the start test -/

/-- A runout check sets the runout flag where the estimate is valid and at or below the runout diameter (R59). -/
theorem runoutCheck_stand {i : StandNo} {s : State} {r : RunningReel} (h : (s.stand i).running = some r) :
    (runoutCheck i s).stand i = { s.stand i with spindle := { (s.stand i).spindle with
      runoutFlag := (s.stand i).spindle.runoutFlag ||
        decide ((s.stand i).spindle.validity = .valid ∧ (s.stand i).spindle.estimate ≤ r.reel.runoutDiameter) } } := by
  have check : runoutCheck i s =
      if (s.stand i).spindle.validity = .valid ∧ (s.stand i).spindle.estimate ≤ r.reel.runoutDiameter ∧
          (s.stand i).spindle.runoutFlag = false then
        raise .runout (modSpindle i (fun x => { x with runoutFlag := true }) s)
      else s := by
    unfold runoutCheck
    simp only [h]
  rw [check]
  split
  · next due =>
    obtain ⟨valid, low, unset⟩ := due
    simp [modSpindle, valid, low]
  · next idle =>
    have kept : ((s.stand i).spindle.runoutFlag ||
        decide ((s.stand i).spindle.validity = .valid ∧ (s.stand i).spindle.estimate ≤ r.reel.runoutDiameter)) =
        (s.stand i).spindle.runoutFlag := by
      cases set : (s.stand i).spindle.runoutFlag with
      | true => rfl
      | false => simpa [set] using idle
    rw [kept]

/-- The start test is the six conditions of R75. -/
theorem startTest_iff (s : State) (i : StandNo) : startTest s i = true ↔ StartConditions s i := by
  simp only [startTest, StartConditions, Stand.lSplice, Bool.and_eq_true, beq_iff_eq, decide_eq_true_eq,
    Bool.not_eq_true', Option.isNone_iff_eq_none, and_assoc]
  cases (s.stand i).running with
  | none => simp
  | some r =>
    simp only [Option.map_some, decide_eq_true_eq, Option.some.injEq, exists_eq_left']
    rfl

/-- The start conditions read the running record, the setup, the spindle side and the jog hold of the stand alone. -/
theorem startConditions_congr {s t : State} {i : StandNo} (hl : t.line = s.line) (hs : t.safe = s.safe)
    (running : (t.stand i).running = (s.stand i).running) (setup : (t.stand i).setup = (s.stand i).setup)
    (spindle : (t.stand i).spindle = (s.stand i).spindle)
    (jog : (t.stand i).io.jogDeadline = (s.stand i).io.jogDeadline) : StartConditions t i ↔ StartConditions s i := by
  simp only [StartConditions, State.safeAsserted, hl, hs, running, setup, spindle, jog]

/-! ### The entry to a waiting state -/

/-- What the entry to IDLE, RUNNING, PREPARED or HELD leaves at its stand (R73, R99). -/
structure EnteredWaiting (p : Phase) (d e : Stand) : Prop where
  seq : e.seq = { d.seq with
    phase := p, changes := d.seq.changes + 1, matchDeadline := none, indexDeadline := none, target := none }
  running : e.running = d.running
  ready   : e.ready = d.ready
  setup   : e.setup = d.setup
  staged  : e.staged = d.staged
  spindle : e.spindle = d.spindle
  paste   : e.paste = d.paste
  records : e.records = d.records
  jog     : e.io.jogDeadline = d.io.jogDeadline

theorem EnteredWaiting.phase {p : Phase} {d e : Stand} (h : EnteredWaiting p d e) : e.seq.phase = p := by rw [h.seq]

theorem EnteredWaiting.changes {p : Phase} {d e : Stand} (h : EnteredWaiting p d e) :
    e.seq.changes = d.seq.changes + 1 := by rw [h.seq]

theorem enter_waiting (i : StandNo) {p : Phase} (hp : p.isWaiting) (s : State) :
    EnteredWaiting p (s.stand i) ((enter i p s).stand i) := by
  rw [enter_stand, if_pos rfl]
  rcases hp with rfl | rfl | rfl | rfl <;> constructor <;> rfl

/-- The answer to a request moves the image count of its stand alone. -/
theorem OwnAnswer.enteredWaiting {slot : Slot} {i : StandNo} {kind : Nat} {r : Result} {s w t : State} {p : Phase}
    {d : Stand} (ans : OwnAnswer slot i kind r s w t) (h : EnteredWaiting p d (w.stand i)) :
    EnteredWaiting p d (t.stand i) := by
  rw [ans.own]
  exact ⟨h.seq, h.running, h.ready, h.setup, h.staged, h.spindle, h.paste, h.records, h.jog⟩

/-! ### DECLARE RUNNING -/

/-- The state with the running record set and reel measurement at the new reel, before the entry (R38). -/
def declaredReel (i : StandNo) (r : RunningReel) (s : State) : State :=
  let set := s.modStand i fun d => { d with running := some r, spindle := d.spindle.declared r.current }
  if r.current.isSome then runoutCheck i set else set

theorem declareReel_eq (i : StandNo) (r : RunningReel) (s : State) : declareReel i r s =
    enter i (if ((declaredReel i r s).stand i).ready.isSome then .prepared else .running) (declaredReel i r s) := rfl

/-- The stand with the new running record: the runout flag is set at a current diameter at or below the runout diameter
(R38, R59). -/
theorem declaredReel_stand (i : StandNo) (r : RunningReel) (s : State) : (declaredReel i r s).stand i =
    { s.stand i with running := some r, spindle := { (s.stand i).spindle.declared r.current with
      runoutFlag := decide (∃ c, r.current = some c ∧ c ≤ r.reel.core + 20) } } := by
  unfold declaredReel
  cases h : r.current with
  | none => simp [SpindleSide.declared]
  | some c =>
    dsimp only [Option.isSome_some]
    rw [if_pos rfl, runoutCheck_stand (r := r) (by simp)]
    simp [SpindleSide.declared, Reel.runoutDiameter]

/-- An accepted DECLARE RUNNING enters PREPARED with a ready record, and RUNNING without one (R37). -/
theorem declareReel_entered (i : StandNo) (r : RunningReel) (s : State) :
    EnteredWaiting (if (s.stand i).ready.isSome then .prepared else .running)
      { s.stand i with running := some r, spindle := { (s.stand i).spindle.declared r.current with
        runoutFlag := decide (∃ c, r.current = some c ∧ c ≤ r.reel.core + 20) } }
      ((declareReel i r s).stand i) := by
  rw [declareReel_eq, ← declaredReel_stand i r s]
  have ready : ((declaredReel i r s).stand i).ready = (s.stand i).ready := by rw [declaredReel_stand]
  rw [ready]
  refine enter_waiting i ?_ _
  split
  · exact .inr (.inr (.inl rfl))
  · exact .inr (.inl rfl)

theorem declareReel_own (i : StandNo) (bytes : Nat → Prop) (r : RunningReel) (s : State) :
    OwnFrame i bytes s (declareReel i r s) := by
  have declared : OwnFrame i bytes s (declaredReel i r s) := by
    unfold declaredReel
    dsimp only
    split
    · exact (OwnFrame.modStand i bytes _ s).trans (.runoutCheck i bytes _)
    · exact .modStand i bytes _ s
  exact declared.trans (.enter i bytes _ _)

/-- Settles O36: refused outside IDLE, refused for its geometry, or accepted with the new reel. -/
theorem declareRunningIsJudged : Obligations.DeclareRunningIsJudged := by
  intro i s hlow hdue
  have owner : declareRunningOwner i (slotTaken (.order i) s) =
      if s.phase i = .idle then
        if (s.reelRequest i).geometryOk then
          (.accepted, declareReel i (s.reelRequest i) (slotTaken (.order i) s))
        else (.refusedRange, slotTaken (.order i) s)
      else (.refusedBusy, slotTaken (.order i) s) := rfl
  by_cases idle : s.phase i = .idle
  · rw [if_pos idle] at owner
    by_cases good : (s.reelRequest i).inRange
    · rw [if_pos ((runningReel_geometryOk_iff _).mpr good)] at owner
      obtain ⟨t, exec, ans⟩ := own_intake (.inl rfl) hlow hdue owner (declareReel_own i _ _ _)
      refine ⟨t, exec, ans.frame.read, ans.frame.others, fun h => absurd idle h, fun _ h => absurd good h, fun _ _ => ?_⟩
      have entered := ans.enteredWaiting (declareReel_entered i _ _)
      exact ⟨ans.header, entered.running, entered.ready, entered.seq, entered.spindle,
        ⟨entered.setup, entered.staged, entered.records, entered.paste⟩, ans.frame.state⟩
    · rw [if_neg (mt (runningReel_geometryOk_iff _).mp good)] at owner
      obtain ⟨t, exec, ans, frame⟩ := refused_intake (.inl rfl) hlow hdue owner
      exact ⟨t, exec, frame.read, frame.others, fun h => absurd idle h,
        fun _ _ => ans, fun _ h => absurd h good⟩
  · rw [if_neg idle] at owner
    obtain ⟨t, exec, ans, frame⟩ := refused_intake (.inl rfl) hlow hdue owner
    exact ⟨t, exec, frame.read, frame.others, fun _ => ans,
      fun h => absurd h idle, fun h => absurd h idle⟩

/-! ### LOAD REEL -/

/-- The state with the ready record set and PREPARED entered, before the start is evaluated (R39). -/
def readyLoaded (i : StandNo) (r : Reel) (s : State) : State :=
  enter i .prepared (s.modStand i fun d => { d with ready := some r })

theorem loadReady_own (i : StandNo) (bytes : Nat → Prop) (r : Reel) (s : State) :
    OwnFrame i bytes s (loadReady i r s) :=
  ((OwnFrame.modStand i bytes _ s).trans (.enter i bytes .prepared _)).trans (.evaluateStart i bytes _)

theorem readyLoaded_entered (i : StandNo) (r : Reel) (s : State) :
    EnteredWaiting .prepared { s.stand i with ready := some r } ((readyLoaded i r s).stand i) := by
  have entered := enter_waiting i (.inr (.inr (.inl rfl))) (s.modStand i fun d => { d with ready := some r })
  rwa [State.modStand_stand_same] at entered

/-- The start conditions at the evaluation are those of the state in which the request is taken in: nothing that they read
has changed (R39, R75). -/
theorem readyLoaded_starts (i : StandNo) (r : Reel) (s : State) :
    StartConditions (readyLoaded i r s) i ↔ StartConditions s i := by
  have entered := readyLoaded_entered i r s
  exact startConditions_congr (by simp [readyLoaded]) (by simp [readyLoaded]) entered.running entered.setup
    entered.spindle entered.jog

/-- An accepted LOAD REEL starts the attempt where the conditions hold, and stays in PREPARED elsewhere (R39, R76). -/
theorem loadReady_cases (i : StandNo) (r : Reel) (s : State) :
    (StartConditions s i ∧ loadReady i r s = enter i .accelerating (readyLoaded i r s)) ∨
      (¬ StartConditions s i ∧ loadReady i r s = readyLoaded i r s) := by
  have prepared : (readyLoaded i r s).phase i = .prepared := by rw [readyLoaded, enter_phase, if_pos rfl]
  have test := (startTest_iff (readyLoaded i r s) i).trans (readyLoaded_starts i r s)
  change (_ ∧ evaluateStart i (readyLoaded i r s) = _) ∨ (_ ∧ evaluateStart i (readyLoaded i r s) = _)
  unfold evaluateStart
  by_cases start : StartConditions s i
  · exact .inl ⟨start, if_pos ⟨prepared, test.mpr start⟩⟩
  · exact .inr ⟨start, if_neg fun h => start (test.mp h.2)⟩

/-- A start at a LOAD REEL is the second change of state after RUNNING (R39, R80). -/
theorem readyLoaded_attempt (i : StandNo) (r : Reel) (s : State) :
    FreshAttempt 2 (s.stand i) ((enter i .accelerating (readyLoaded i r s)).stand i) := by
  rw [readyLoaded, enter_stand, if_pos rfl, enter_stand, if_pos rfl, State.modStand_stand_same]
  refine ⟨?_, rfl, rfl, rfl, rfl, rfl⟩
  have changes : (s.stand i).seq.changes + 1 + 1 = (s.stand i).seq.changes + 2 := by rw [BitVec.add_assoc]; rfl
  rw [← changes]
  rfl

theorem loadReady_reels (i : StandNo) (r : Reel) (s : State) :
    ((loadReady i r s).stand i).ready = some r ∧ ((loadReady i r s).stand i).running = (s.stand i).running := by
  have entered := readyLoaded_entered i r s
  rcases loadReady_cases i r s with ⟨_, h⟩ | ⟨_, h⟩ <;> rw [h]
  · rw [enter_stand, if_pos rfl]
    exact ⟨entered.ready, entered.running⟩
  · exact ⟨entered.ready, entered.running⟩

/-- The stand after the answer to an accepted LOAD REEL (R39, R76). -/
theorem loadReady_answered {slot : Slot} {i : StandNo} {kind : Nat} {res : Result} {r : Reel} {s b t : State}
    (ans : OwnAnswer slot i kind res s (loadReady i r b) t) :
    (t.stand i).ready = some r ∧ (t.stand i).running = (b.stand i).running ∧
      (StartConditions b i → FreshAttempt 2 (b.stand i) (t.stand i)) ∧
      (¬ StartConditions b i → t.phase i = .prepared ∧ (t.stand i).seq.changes = (b.stand i).seq.changes + 1 ∧
        (t.stand i).spindle = (b.stand i).spindle) := by
  obtain ⟨ready, running⟩ := loadReady_reels i r b
  refine ⟨by rw [ans.own]; exact ready, by rw [ans.own]; exact running, ?_⟩
  rcases loadReady_cases i r b with ⟨starts, h⟩ | ⟨stays, h⟩ <;> rw [h] at ans
  · refine ⟨fun _ => ?_, fun stays => absurd starts stays⟩
    rw [ans.own]
    exact readyLoaded_attempt i r b
  · have entered := ans.enteredWaiting (readyLoaded_entered i r b)
    exact ⟨fun starts => absurd starts stays, fun _ => ⟨entered.phase, entered.changes, entered.spindle⟩⟩

/-- LOAD REEL's judgement (R39). -/
theorem loadReelOwner_cases (i : StandNo) (s : State) :
    (s.phase i = .running ∧ (s.reelRequest i).reel.inRange ∧
        loadReelOwner i s = (.accepted, loadReady i (s.reelRequest i).reel s)) ∨
      (s.phase i = .running ∧ ¬ (s.reelRequest i).reel.inRange ∧ loadReelOwner i s = (.refusedRange, s)) ∨
      (s.phase i = .idle ∧ loadReelOwner i s = (.refusedNoReel, s)) ∨
      ((s.phase i = .prepared ∨ s.phase i = .held) ∧ loadReelOwner i s = (.refusedReelPresent, s)) ∨
      (¬ (s.phase i).isWaiting ∧ loadReelOwner i s = (.refusedBusy, s)) := by
  unfold loadReelOwner
  split
  · next running =>
    by_cases good : (s.reelRequest i).reel.inRange
    · exact .inl ⟨running, good, if_pos ((reel_loadOk_iff _).mpr good)⟩
    · exact .inr (.inl ⟨running, good, if_neg (mt (reel_loadOk_iff _).mp good)⟩)
  · next idle => exact .inr (.inr (.inl ⟨idle, rfl⟩))
  · next prepared => exact .inr (.inr (.inr (.inl ⟨.inl prepared, rfl⟩)))
  · next held => exact .inr (.inr (.inr (.inl ⟨.inr held, rfl⟩)))
  all_goals
    next busy => exact .inr (.inr (.inr (.inr ⟨by simp [busy, Phase.isWaiting], rfl⟩)))

/-! ### CANCEL REEL -/

/-- The state with the ready record removed and RUNNING entered (R40). -/
def reelCancelled (i : StandNo) (s : State) : State :=
  enter i .running (s.modStand i fun d => { d with ready := none })

theorem reelCancelled_own (i : StandNo) (bytes : Nat → Prop) (s : State) : OwnFrame i bytes s (reelCancelled i s) :=
  (OwnFrame.modStand i bytes _ s).trans (.enter i bytes .running _)

theorem reelCancelled_entered (i : StandNo) (s : State) :
    EnteredWaiting .running { s.stand i with ready := none } ((reelCancelled i s).stand i) := by
  have entered := enter_waiting i (.inr (.inl rfl)) (s.modStand i fun d => { d with ready := none })
  rwa [State.modStand_stand_same] at entered

/-- CANCEL REEL's judgement (R40). -/
theorem cancelReelOwner_cases (i : StandNo) (s : State) :
    ((s.phase i = .prepared ∨ s.phase i = .held) ∧ cancelReelOwner i s = (.accepted, reelCancelled i s)) ∨
      ((s.phase i = .idle ∨ s.phase i = .running) ∧ cancelReelOwner i s = (.refusedNoReel, s)) ∨
      (¬ (s.phase i).isWaiting ∧ cancelReelOwner i s = (.refusedBusy, s)) := by
  unfold cancelReelOwner
  split
  · next prepared => exact .inl ⟨.inl prepared, rfl⟩
  · next held => exact .inl ⟨.inr held, rfl⟩
  · next idle => exact .inr (.inl ⟨.inl idle, rfl⟩)
  · next running => exact .inr (.inl ⟨.inr running, rfl⟩)
  all_goals
    next busy => exact .inr (.inr ⟨by simp [busy, Phase.isWaiting], rfl⟩)

/-! ### The two requests, settled -/

/-- Settles O37: LOAD REEL and CANCEL REEL, each by the cases of its judgement. -/
theorem loadAndCancelReelAreJudged : Obligations.LoadAndCancelReelAreJudged := by
  intro i s hlow
  refine ⟨fun hdue => ?_, fun hdue => ?_⟩
  · have judged := loadReelOwner_cases i (slotTaken (.order i) s)
    simp only [slotTaken_phase, slotTaken_reelRequest] at judged
    rcases judged with ⟨running, good, owner⟩ | ⟨running, bad, owner⟩ | ⟨idle, owner⟩ | ⟨present, owner⟩ | ⟨busy, owner⟩
    · obtain ⟨t, exec, ans⟩ := own_intake (.inl rfl) hlow hdue owner (loadReady_own i _ _ _)
      refine ⟨t, exec, ans.frame.read, ans.frame.others, by simp [running], by simp [running],
        by simp [running, Phase.isWaiting], fun _ bad => absurd good bad, fun _ _ => ⟨ans.header, ?_⟩⟩
      exact loadReady_answered (b := slotTaken (.order i) s) ans
    · obtain ⟨t, exec, ans, frame⟩ := refused_intake (.inl rfl) hlow hdue owner
      exact ⟨t, exec, frame.read, frame.others, by simp [running, bad, ans, Phase.isWaiting]⟩
    · obtain ⟨t, exec, ans, frame⟩ := refused_intake (.inl rfl) hlow hdue owner
      exact ⟨t, exec, frame.read, frame.others, by simp [idle, ans, Phase.isWaiting]⟩
    · obtain ⟨t, exec, ans, frame⟩ := refused_intake (.inl rfl) hlow hdue owner
      exact ⟨t, exec, frame.read, frame.others, by rcases present with h | h <;> simp [h, ans, Phase.isWaiting]⟩
    · obtain ⟨t, exec, ans, frame⟩ := refused_intake (.inl rfl) hlow hdue owner
      simp only [Phase.isWaiting, not_or] at busy
      exact ⟨t, exec, frame.read, frame.others, by simp [busy, ans]⟩
  · have judged := cancelReelOwner_cases i (slotTaken (.order i) s)
    simp only [slotTaken_phase] at judged
    rcases judged with ⟨present, owner⟩ | ⟨absent, owner⟩ | ⟨busy, owner⟩
    · obtain ⟨t, exec, ans⟩ := own_intake (.inl rfl) hlow hdue owner (reelCancelled_own i _ _)
      have entered := ans.enteredWaiting (reelCancelled_entered i _)
      have waiting : (s.phase i).isWaiting := present.elim (fun h => .inr (.inr (.inl h))) fun h => .inr (.inr (.inr h))
      exact ⟨t, exec, ans.frame.read, ans.frame.others, by rcases present with h | h <;> simp [h],
        fun busy => absurd waiting busy, fun _ => ⟨ans.header, entered.phase, entered.ready, entered.running,
          entered.changes, entered.spindle, entered.jog⟩⟩
    · obtain ⟨t, exec, ans, frame⟩ := refused_intake (.inl rfl) hlow hdue owner
      exact ⟨t, exec, frame.read, frame.others, by rcases absent with h | h <;> simp [h, ans, Phase.isWaiting]⟩
    · obtain ⟨t, exec, ans, frame⟩ := refused_intake (.inl rfl) hlow hdue owner
      simp only [Phase.isWaiting, not_or] at busy
      exact ⟨t, exec, frame.read, frame.others, by simp [busy, ans]⟩

end Sys2Proof.Machine
end

section
/-!
PROOFS, chapter 3: STAND SETUP (R16, R22, R41 to R46).
-/
namespace Sys2Proof.Machine

/-! ### Fields of refused class -/

/-- A present field above the last value of its range. -/
def above (top : Nat) (x : Option Nat) : Prop := ∃ n, x = some n ∧ top < n

/-- A present field outside its range. -/
def outside (lo hi : Nat) (x : Option Nat) : Prop := ∃ n, x = some n ∧ ¬ (lo ≤ n ∧ n ≤ hi)

theorem presentInRange_iff (lo hi : Nat) (x : Option Nat) : presentInRange lo hi x = true ↔ ¬ outside lo hi x := by
  cases x <;> simp [presentInRange, inRange_iff, outside]

theorem presentInRange_zero_iff (hi : Nat) (x : Option Nat) : presentInRange 0 hi x = true ↔ ¬ above hi x := by
  cases x <;> simp [presentInRange, inRange_iff, above]

/-- A decoder names a value for the codes 0 to `top` and for no other. -/
def DecodesTo {α : Type} (decode : Nat → Option α) (top : Nat) : Prop := ∀ n, (decode n).isSome = decide (n ≤ top)

theorem decodeRate_to : DecodesTo decodeRate 1 := fun n => by
  match n with
  | 0 | 1 => rfl
  | _ + 2 => simp [decodeRate]

theorem decodeEdge_to : DecodesTo decodeEdge 2 := fun n => by
  match n with
  | 0 | 1 | 2 => rfl
  | _ + 3 => simp [decodeEdge]

theorem decodeTab_to : DecodesTo decodeTab 1 := fun n => by
  match n with
  | 0 | 1 => rfl
  | _ + 2 => simp [decodeTab]

theorem decodeSwitch_to : DecodesTo decodeSwitch 1 := fun n => by
  match n with
  | 0 | 1 => rfl
  | _ + 2 => simp [decodeSwitch]

theorem decodeMode_to : DecodesTo decodeMode 1 := fun n => by
  match n with
  | 0 | 1 => rfl
  | _ + 2 => simp [decodeMode]

theorem codeOk_iff {α : Type} {decode : Nat → Option α} {top : Nat} (h : DecodesTo decode top) (x : Option Nat) :
    codeOk decode x = true ↔ ¬ above top x := by
  cases x <;> simp [codeOk, h _, above]

/-- A field of refused class is out of the range of R41 (R43). -/
def SetupRequest.OutOfRange (r : SetupRequest) : Prop :=
  above 2000000 r.pathLength ∨ above 4095 r.theta ∨ above 1 r.rate ∨ above 2 r.edgeSpindle ∨ above 2 r.edgeTab ∨
    above 2 r.edgeHome ∨ above 1 r.tabSelect ∨ above 1 r.seeThrough ∨ above 1 r.break1 ∨ above 1 r.break2 ∨
    above 1 r.break3 ∨ above 1 r.break4 ∨ above 1 r.phaseMode ∨ above 7 r.patRun ∨ above 7 r.patAccel ∨
    above 7 r.patSplice ∨ above 7 r.patIndex

theorem setupRequest_inRange_iff (r : SetupRequest) : r.inRange = false ↔ r.OutOfRange := by
  have within : r.inRange = true ↔ ¬ r.OutOfRange := by
    simp only [SetupRequest.inRange, SetupRequest.OutOfRange, Bool.and_eq_true, presentInRange_zero_iff,
      codeOk_iff decodeRate_to, codeOk_iff decodeEdge_to, codeOk_iff decodeTab_to, codeOk_iff decodeSwitch_to,
      codeOk_iff decodeMode_to, not_or, and_assoc]
  rw [← Bool.not_eq_true, within, Classical.not_not]

/-! ### Fields of clamped class -/

/-- A field of clamped class is outside the range of R41 (R45). -/
def SetupRequest.OutsideClamps (r : SetupRequest) : Prop :=
  outside 0 20000 r.zoneLength ∨ outside 0 500000 r.tAct ∨ outside 0 200000 r.dwell ∨ outside 0 200000 r.knifeDelay ∨
    outside 1000 200000 r.knifeWidth ∨ outside 1000 60000 r.tAcc ∨ outside 0 30000 r.tSettle ∨ outside 1 50 r.window ∨
    (∃ x, r.offset = some x ∧ ¬ (-20 ≤ x ∧ x ≤ 20)) ∨ outside 2000 60000 r.tMatch

theorem offsetInRange_iff (x : Option Int) : offsetInRange x = true ↔ ¬ ∃ n, x = some n ∧ ¬ (-20 ≤ n ∧ n ≤ 20) := by
  cases x <;> simp [offsetInRange]

theorem setupRequest_clamps_iff (r : SetupRequest) : r.clamps = true ↔ r.OutsideClamps := by
  have within : r.clamps = false ↔ ¬ r.OutsideClamps := by
    simp only [SetupRequest.clamps, SetupRequest.OutsideClamps, Bool.not_eq_false', Bool.and_eq_true,
      presentInRange_iff, offsetInRange_iff, not_or, and_assoc]
  rw [← Bool.not_eq_false, within, Classical.not_not]

theorem clampInt_eq {lo hi : Int} (h : lo ≤ hi) (x : Int) : clampInt lo hi x = max lo (min x hi) := by
  unfold clampInt
  split
  · omega
  · split <;> omega

/-! ### The merge -/

/-- A present field of clamped class in place of a stored value (R45). -/
def putWithin (lo hi stored : Nat) (x : Option Nat) : Nat := (x.map fun n => max lo (min n hi)).getD stored

/-- A present edge select in place of a stored one, by its code (R41). -/
def edgeOf (stored : EdgeSelect) (x : Option Nat) : EdgeSelect :=
  (x.map fun n => if n = 0 then EdgeSelect.none else if n = 1 then .rise else .fall).getD stored

/-- A present switch in place of a stored one, by its code (R41). -/
def switchOf (stored : Bool) (x : Option Nat) : Bool := (x.map fun n => decide (n = 1)).getD stored

/-- The merge of R45, field by field. -/
def SetupRequest.mergedInto (r : SetupRequest) (u : Setup) : Setup where
  pathLength  := r.pathLength.getD u.pathLength
  zoneLength  := putWithin 0 20000 u.zoneLength r.zoneLength
  theta       := r.theta.getD u.theta
  tAct        := putWithin 0 500000 u.tAct r.tAct
  dwell       := putWithin 0 200000 u.dwell r.dwell
  knifeDelay  := putWithin 0 200000 u.knifeDelay r.knifeDelay
  knifeWidth  := putWithin 1000 200000 u.knifeWidth r.knifeWidth
  tAcc        := putWithin 1000 60000 u.tAcc r.tAcc
  tSettle     := putWithin 0 30000 u.tSettle r.tSettle
  window      := putWithin 1 50 u.window r.window
  offset      := (r.offset.map fun x => max (-20) (min x 20)).getD u.offset
  tMatch      := putWithin 2000 60000 u.tMatch r.tMatch
  rate        := (r.rate.map fun n => if n = 0 then FilterRate.fast else .slow).getD u.rate
  edgeSpindle := edgeOf u.edgeSpindle r.edgeSpindle
  edgeTab     := edgeOf u.edgeTab r.edgeTab
  edgeHome    := edgeOf u.edgeHome r.edgeHome
  tabSelect   := (r.tabSelect.map fun n => if n = 0 then TabSelect.a else .b).getD u.tabSelect
  seeThrough  := switchOf u.seeThrough r.seeThrough
  breakEnable := #v[switchOf u.breakEnable[0] r.break1, switchOf u.breakEnable[1] r.break2,
    switchOf u.breakEnable[2] r.break3, switchOf u.breakEnable[3] r.break4]
  phaseMode   := (r.phaseMode.map fun n => if n = 0 then PhaseMode.auto else .manual).getD u.phaseMode
  patRun      := r.patRun.getD u.patRun
  patAccel    := r.patAccel.getD u.patAccel
  patSplice   := r.patSplice.getD u.patSplice
  patIndex    := r.patIndex.getD u.patIndex

/-- A code in range decodes as any reading of it that agrees on the codes 0 to `top`. -/
theorem codeOr_eq {α : Type} {decode : Nat → Option α} {top : Nat} {value : Nat → α} {x : Option Nat} (hx : ¬ above top x)
    (h : ∀ n, n ≤ top → decode n = some (value n)) (stored : α) : codeOr decode stored x = (x.map value).getD stored := by
  cases x with
  | none => rfl
  | some n =>
    have low : n ≤ top := Nat.not_lt.mp fun high => hx ⟨n, rfl, high⟩
    simp [codeOr, h n low]

theorem codeOr_edge {x : Option Nat} (hx : ¬ above 2 x) (stored : EdgeSelect) :
    codeOr decodeEdge stored x = edgeOf stored x := codeOr_eq hx (by decide) stored

theorem codeOr_switch {x : Option Nat} (hx : ¬ above 1 x) (stored : Bool) :
    codeOr decodeSwitch stored x = switchOf stored x := codeOr_eq hx (by decide) stored

theorem setupRequest_merge {r : SetupRequest} (h : ¬ r.OutOfRange) (u : Setup) : r.merge u = r.mergedInto u := by
  simp only [SetupRequest.OutOfRange, not_or] at h
  obtain ⟨_, _, rate, edgeSpindle, edgeTab, edgeHome, tabSelect, seeThrough, break1, break2, break3, break4, phaseMode, _⟩ := h
  have offset : clampInt (-20) 20 = fun x => max (-20) (min x 20) := funext (clampInt_eq (by decide))
  simp only [SetupRequest.merge, SetupRequest.mergedInto, putWithin, clampedOr_eq (Nat.zero_le _),
    clampedOr_eq (show 1000 ≤ 200000 by decide), clampedOr_eq (show 1000 ≤ 60000 by decide),
    clampedOr_eq (show 1 ≤ 50 by decide), clampedOr_eq (show 2000 ≤ 60000 by decide), offset,
    codeOr_edge edgeSpindle, codeOr_edge edgeTab, codeOr_edge edgeHome, codeOr_switch seeThrough, codeOr_switch break1,
    codeOr_switch break2, codeOr_switch break3, codeOr_switch break4]
  rw [codeOr_eq (value := fun n => if n = 0 then FilterRate.fast else .slow) rate (by decide),
    codeOr_eq (value := fun n => if n = 0 then TabSelect.a else .b) tabSelect (by decide),
    codeOr_eq (value := fun n => if n = 0 then PhaseMode.auto else .manual) phaseMode (by decide)]

/-! ### The edge order -/

/-- A direct change between RISE and FALL (R44). -/
def turned (x y : EdgeSelect) : Prop := x = .rise ∧ y = .fall ∨ x = .fall ∧ y = .rise

theorem directChange_iff (x y : EdgeSelect) : directChange x y = true ↔ turned x y := by
  cases x <;> cases y <;> simp [directChange, turned]

/-- An edge select of the stand would change directly between RISE and FALL (R44). -/
def SetupRequest.TurnsEdge (r : SetupRequest) (u : Setup) : Prop :=
  turned u.edgeSpindle (r.mergedInto u).edgeSpindle ∨ turned u.edgeTab (r.mergedInto u).edgeTab ∨
    turned u.edgeHome (r.mergedInto u).edgeHome

theorem edgeOrderFails_iff {r : SetupRequest} (h : ¬ r.OutOfRange) (u : Setup) :
    r.edgeOrderFails u = true ↔ r.TurnsEdge u := by
  simp only [SetupRequest.edgeOrderFails, Bool.or_eq_true, directChange_iff, or_assoc]
  rw [SetupRequest.TurnsEdge, ← setupRequest_merge h]
  rfl

/-! ### The hand-overs -/

theorem standInputs_map_get (f : Input → Input) (x : StandInputs) (n : StandInput) : (x.map f).get n = f (x.get n) := by
  cases n with
  | brk k =>
    match k with
    | 0 | 1 | 2 | 3 => rfl
  | _ => rfl

/-- A merge changes the setup set, and with it the filters' counts at a new filter rate and the armed flag at new break
enables (R16, R22, R46). -/
theorem mergeSetup_eq (r : SetupRequest) (d : Stand) : d.mergeSetup r = { d with
    setup := r.merge d.setup
    io := { d.io with inputs := (d.mergeSetup r).io.inputs, breakArmed := (d.mergeSetup r).io.breakArmed } } := by
  unfold Stand.mergeSetup
  dsimp only
  split <;> split <;> rfl

theorem mergeSetup_setup (r : SetupRequest) (d : Stand) : (d.mergeSetup r).setup = r.merge d.setup := by
  rw [mergeSetup_eq]

theorem mergeSetup_inputs (r : SetupRequest) (d : Stand) : (d.mergeSetup r).io.inputs =
    if (r.merge d.setup).rate = d.setup.rate then d.io.inputs else d.io.inputs.map Input.restart := by
  unfold Stand.mergeSetup
  dsimp only
  split <;> split <;> rfl

theorem mergeSetup_breakArmed (r : SetupRequest) (d : Stand) : (d.mergeSetup r).io.breakArmed =
    if (r.merge d.setup).breakEnable = d.setup.breakEnable then d.io.breakArmed
    else !(d.mergeSetup r).anyBreakAsserted := by
  unfold Stand.mergeSetup
  dsimp only
  split <;> split <;> rfl

/-! ### The judgement -/

/-- The states in which STAND SETUP is judged further (R42). -/
theorem setupState_eq {p : Phase} (h : p.isWaiting ∨ p = .faulted) : setupState p = some (decide (p ≠ .idle)) := by
  rcases h with (rfl | rfl | rfl | rfl) | rfl <;> rfl

theorem setupState_busy {p : Phase} (h : ¬ (p.isWaiting ∨ p = .faulted)) : setupState p = none := by
  cases p <;> simp [Phase.isWaiting, setupState] at h ⊢

theorem standSetupOwner_busy {i : StandNo} {s : State} (h : ¬ ((s.phase i).isWaiting ∨ s.phase i = .faulted)) :
    standSetupOwner i s = (.refusedBusy, s) := by
  unfold standSetupOwner
  rw [setupState_busy h]

theorem standSetupOwner_judges {i : StandNo} {s : State} (h : (s.phase i).isWaiting ∨ s.phase i = .faulted) :
    standSetupOwner i s =
      if (s.setupRequest i).inRange = false then (.refusedRange, s)
      else if s.phase i ≠ .idle ∧ (s.setupRequest i).edgeOrderFails (s.stand i).setup = true then (.refusedEdgeOrder, s)
      else (acceptedWith (s.setupRequest i).clamps, s.modStand i fun d => d.mergeSetup (s.setupRequest i)) := by
  unfold standSetupOwner
  rw [setupState_eq h]
  simp only [decide_eq_true_eq]

/-- The answer to an accepted STAND SETUP is ACCEPTED_CLAMPED where a field was clamped, and ACCEPTED elsewhere (R45). -/
theorem acceptedWith_clamps (r : SetupRequest) {res : Result} (clamped : r.OutsideClamps → res = .acceptedClamped)
    (unclamped : ¬ r.OutsideClamps → res = .accepted) : acceptedWith r.clamps = res := by
  by_cases h : r.OutsideClamps
  · rw [(setupRequest_clamps_iff r).mpr h, clamped h]
    rfl
  · rw [Bool.eq_false_iff.mpr (mt (setupRequest_clamps_iff r).mp h), unclamped h]
    rfl

/-- What an accepted STAND SETUP hands on: the filters' counts restart at a new rate (R16), and new enables recompute the
armed flag (R22). -/
theorem mergeSetup_handsOn (r : SetupRequest) (d : Stand) :
    let e := d.mergeSetup r
    (e.setup.rate = d.setup.rate → e.io.inputs = d.io.inputs) ∧
    (e.setup.rate ≠ d.setup.rate → ∀ n : StandInput, e.io.inputs.get n = { d.io.inputs.get n with count := 0 }) ∧
    (e.setup.breakEnable = d.setup.breakEnable → e.io.breakArmed = d.io.breakArmed) ∧
    (e.setup.breakEnable ≠ d.setup.breakEnable → e.io.breakArmed = !e.anyBreakAsserted) := by
  dsimp only
  rw [mergeSetup_setup, mergeSetup_inputs, mergeSetup_breakArmed]
  refine ⟨fun same => if_pos same, fun new n => ?_, fun same => if_pos same, fun new => if_neg new⟩
  rw [if_neg new, standInputs_map_get]
  rfl

/-- The state with the merged setup, written with the stand interface that the merge leaves (R45, R46). -/
theorem modStand_mergeSetup {i : StandNo} {s : State} {r : SetupRequest} {io : StandIO} (h : ¬ r.OutOfRange)
    (hio : io = ((s.stand i).mergeSetup r).io) : s.modStand i (fun d => d.mergeSetup r) =
      s.setStand i { s.stand i with
        setup := r.mergedInto (s.stand i).setup
        io := { (s.stand i).io with inputs := io.inputs, breakArmed := io.breakArmed } } := by
  rw [hio, ← setupRequest_merge h, ← mergeSetup_eq, State.modStand]

/-- STAND SETUP's judgement (R42 to R45). -/
theorem standSetupOwner_cases (i : StandNo) (s : State) :
    let r := s.setupRequest i
    let judged := (s.phase i).isWaiting ∨ s.phase i = .faulted
    let turns := s.phase i ≠ .idle ∧ r.TurnsEdge (s.stand i).setup
    (¬ judged ∧ standSetupOwner i s = (.refusedBusy, s)) ∨
      (judged ∧ r.OutOfRange ∧ standSetupOwner i s = (.refusedRange, s)) ∨
      (judged ∧ ¬ r.OutOfRange ∧ turns ∧ standSetupOwner i s = (.refusedEdgeOrder, s)) ∨
      (judged ∧ ¬ r.OutOfRange ∧ ¬ turns ∧
        standSetupOwner i s = (acceptedWith r.clamps, s.modStand i fun d => d.mergeSetup r)) := by
  dsimp only
  by_cases judged : (s.phase i).isWaiting ∨ s.phase i = .faulted
  case neg => exact .inl ⟨judged, standSetupOwner_busy judged⟩
  rw [standSetupOwner_judges judged]
  split
  · next bad => exact .inr (.inl ⟨judged, (setupRequest_inRange_iff _).mp bad, rfl⟩)
  · next good =>
    have good := mt (setupRequest_inRange_iff _).mpr good
    have order := and_congr_right_iff.mpr fun _ : s.phase i ≠ .idle => edgeOrderFails_iff good (s.stand i).setup
    split
    · next turns => exact .inr (.inr (.inl ⟨judged, good, order.mp turns, rfl⟩))
    · next straight => exact .inr (.inr (.inr ⟨judged, good, mt order.mpr straight, rfl⟩))

/-- Settles O38: refused busy, refused for its range, refused for its edge order, or merged with the hand-overs of R46. -/
theorem standSetupIsJudgedAndMerged : Obligations.StandSetupIsJudgedAndMerged := by
  intro i s hlow hdue
  have cases := standSetupOwner_cases i (slotTaken (.order i) s)
  simp only [slotTaken_phase, slotTaken_setupRequest, slotTaken_stand] at cases
  rcases cases with ⟨busy, owner⟩ | ⟨judged, bad, owner⟩ | ⟨judged, good, turns, owner⟩ | ⟨judged, good, straight, owner⟩
  · obtain ⟨t, exec, ans, frame⟩ := quiet_intake (.inl rfl) hlow hdue owner (.refl i _ s) rfl
    exact ⟨t, exec, frame.read, fun _ => ans, fun h => absurd busy h, fun h => absurd busy h, fun h => absurd busy h⟩
  · obtain ⟨t, exec, ans, frame⟩ := quiet_intake (.inl rfl) hlow hdue owner (.refl i _ s) rfl
    exact ⟨t, exec, frame.read, fun h => absurd judged h, fun _ _ => ans, fun _ h => absurd bad h,
      fun _ h => absurd bad h⟩
  · obtain ⟨t, exec, ans, frame⟩ := quiet_intake (.inl rfl) hlow hdue owner (.refl i _ s) rfl
    exact ⟨t, exec, frame.read, fun h => absurd judged h, fun _ h => absurd h good, fun _ _ _ => ans,
      fun _ _ h => absurd turns h⟩
  · obtain ⟨t, exec, ans, frame⟩ := quiet_intake (u := s.modStand i fun d => d.mergeSetup (s.setupRequest i))
      (.inl rfl) hlow hdue owner (.modStand i _ _ s) (by rw [State.modStand_stand_same, mergeSetup_eq])
    have own := ans.stand i
    rw [State.modStand_stand_same] at own
    refine ⟨t, exec, frame.read, fun h => absurd judged h, fun _ h => absurd h good, fun _ _ h => absurd h straight,
      fun _ _ _ => ⟨fun res clamped unclamped => ?_, ?_⟩⟩
    · rw [acceptedWith_clamps _ clamped unclamped, modStand_mergeSetup good (io := (t.stand i).io) (by rw [own])] at ans
      exact ans
    · rw [own]
      exact mergeSetup_handsOn (s.setupRequest i) (s.stand i)

end Sys2Proof.Machine
end
